-- ==== Sys2Proof/Word.lean ====
section
/-! DEFINITION. The word types of the engine: bytes, 32-bit register words and 16-byte blocks
(00_scope.md rules R10, R11, R13). -/

namespace Sys2Proof

/-- A byte, also an element of GF(2^8): bit i is the coefficient of x^i (rule R12). -/
abbrev Byte := BitVec 8

/-- A 32-bit register word, with bits [31:0] (rule R10). -/
abbrev Word := BitVec 32

/-- A block: 16 bytes `b[0] .. b[15]` (rule R11). As a state of the round pipeline, byte `r + 4c` is row r of
column c. -/
abbrev Block := Vector Byte 16

/-- The all-zero block, `0^128` in the spec's pseudocode. -/
def zeroBlock : Block := Vector.replicate 16 0

/-- `a ⊕ b` on blocks, byte by byte (rule R12). -/
def xorBlock (a b : Block) : Block := Vector.ofFn fun k => a[k] ^^^ b[k]

end Sys2Proof
end

