-- ==== Sys2Proof/Config.lean ====
section
/-! DEFINITION. The fixed parameters of the engine (00_scope.md rule R9). The parameters a platform chooses are
arguments of Machine/Platform.lean (BASE, ENGINES) or no part of the model (LAT, IRQ_LINE: log entry 5).
No result of a command is left open by the spec, so there is no free value here. -/

namespace Sys2Proof

/-- ID_VALUE: ASCII "AES" and the version byte 0x01 (rules R3, R36). -/
def Config.idValue : Word := 0x41455301#32

/-- BLOCK_BYTES (rule R9). -/
def Config.blockBytes : Nat := 16

/-- RK_SLOTS: round keys 0..14 (rule R9). -/
def Config.rkSlots : Nat := 15

/-- The highest opcode of the map of 30_encoding.md rule R98. -/
def Config.lastOpcode : Nat := 0x10

/-- The decoder mask over OP, RSV7 and RSV15 (30_encoding.md rule R98). -/
def Config.decodeMask : Word := 0x0000809F#32

/-- REG_SPACE: the bytes of the register window (rule R9). -/
def Config.regSpace : Nat := 256

end Sys2Proof
end

