-- ==== Sys2Proof/Syntax.lean ====
section
/-! DEFINITION. The commands of the engine: one constructor per row of spec/opcode_table.json
(30_encoding.md rule R98), each with exactly the fields the command uses (rule R97). -/

namespace Sys2Proof

/-- KLEN, the key size of EXPAND (rule R93). `kbad` is the code 0b11, which EXPAND rejects. -/
inductive KeyLen where
  | k128 | k192 | k256 | kbad
  deriving DecidableEq, Repr

/-- MODE, the block mode of ENC and DEC (rule R92). -/
inductive Mode where
  | ecb | cbc
  deriving DecidableEq, Repr

/-- A decoded command. `dlen` is the byte count DLEN (rule R94), `i` the round-key index A[3:0] (rule R95);
`Instr.wf` bounds both by the width of their field. -/
inductive Instr where
  | nop
  | clear
  | expand (klen : KeyLen)
  | enc (mode : Mode) (final : Bool) (dlen : Nat)
  | dec (mode : Mode) (final : Bool) (dlen : Nat)
  | rkrd (i : Nat)
  | gfmul (a b : Byte)
  | gfinv (a : Byte)
  | sbox (a : Byte)
  | isbox (a : Byte)
  | subb
  | isubb
  | shr
  | ishr
  | mixc
  | imixc
  | ark (i : Nat)
  deriving DecidableEq, Repr

end Sys2Proof
end

