-- ==== Sys2Proof/WellFormed.lean ====
section
/-! DEFINITION. When a command fits its 32-bit word: DLEN has 5 bits and a round-key index 4 bits
(30_encoding.md rules R90, R94, R95). Every other field is bounded by its type. -/

namespace Sys2Proof

/-- The command's operands fit their fields. -/
def Instr.wf : Instr → Bool
  | .enc _ _ dlen => dlen < 32
  | .dec _ _ dlen => dlen < 32
  | .rkrd i => i < 16
  | .ark i => i < 16
  | .nop => true
  | .clear => true
  | .expand _ => true
  | .gfmul _ _ => true
  | .gfinv _ => true
  | .sbox _ => true
  | .isbox _ => true
  | .subb => true
  | .isubb => true
  | .shr => true
  | .ishr => true
  | .mixc => true
  | .imixc => true

/-- `Instr.wf` as a proposition. -/
abbrev Instr.WellFormed (i : Instr) : Prop := i.wf = true

end Sys2Proof
end

