-- ==== Sys2Proof/Decode.lean ====
section
/-! DEFINITION. Decoding a command word (30_encoding.md rule R96), and the encoder (rules R90, R102). -/

namespace Sys2Proof

/-- Why a word is illegal (rules R96, R99). -/
inductive IllegalWord where
  /-- RSV7, bit 7, is set. -/
  | rsv7Set
  /-- RSV15, bit 15, is set. -/
  | rsv15Set
  /-- OP is in 0x11..0x1F. -/
  | reservedOpcode
  deriving DecidableEq, Repr

/-- The result of `decode` (rule R96): a command, or Illegal with its reason. -/
inductive Decoded where
  | command (i : Instr)
  | illegal (why : IllegalWord)
  deriving DecidableEq, Repr

/-- OP = PEND[4:0] (rule R91). -/
def opField (p : Word) : Nat := (p.extractLsb' 0 5).toNat

/-- KLEN = PEND[9:8] (rule R93). -/
def klenField (p : Word) : KeyLen :=
  match (p.extractLsb' 8 2).toNat with
  | 0 => .k128
  | 1 => .k192
  | 2 => .k256
  | _ => .kbad

/-- MODE = PEND[5] (rule R92). -/
def modeField (p : Word) : Mode := if p.getLsbD 5 then .cbc else .ecb

/-- FINAL = PEND[6] (rule R92). -/
def finalField (p : Word) : Bool := p.getLsbD 6

/-- DLEN = PEND[14:10] (rule R94). -/
def dlenField (p : Word) : Nat := (p.extractLsb' 10 5).toNat

/-- A = PEND[23:16] (rule R95). -/
def aField (p : Word) : Byte := p.extractLsb' 16 8

/-- B = PEND[31:24] (rule R95). -/
def bField (p : Word) : Byte := p.extractLsb' 24 8

/-- The round-key index A[3:0] = PEND[19:16] (rule R95). -/
def indexField (p : Word) : Nat := (p.extractLsb' 16 4).toNat

/-- The command of an opcode, with the fields it uses read from the word (rules R97, R98). -/
def decodeOp (p : Word) : Option Instr :=
  match opField p with
  | 0x00 => some .nop
  | 0x01 => some .clear
  | 0x02 => some (.expand (klenField p))
  | 0x03 => some (.enc (modeField p) (finalField p) (dlenField p))
  | 0x04 => some (.dec (modeField p) (finalField p) (dlenField p))
  | 0x05 => some (.rkrd (indexField p))
  | 0x06 => some (.gfmul (aField p) (bField p))
  | 0x07 => some (.gfinv (aField p))
  | 0x08 => some (.sbox (aField p))
  | 0x09 => some (.isbox (aField p))
  | 0x0A => some .subb
  | 0x0B => some .isubb
  | 0x0C => some .shr
  | 0x0D => some .ishr
  | 0x0E => some .mixc
  | 0x0F => some .imixc
  | 0x10 => some (.ark (indexField p))
  | _ => none

/-- `decode(p)` of rule R96: total on every 32-bit word. -/
def decode (p : Word) : Decoded :=
  if p.getLsbD 7 then .illegal .rsv7Set
  else if p.getLsbD 15 then .illegal .rsv15Set
  else match decodeOp p with
    | some i => .command i
    | none => .illegal .reservedOpcode

/-- The opcode of a command (rule R98). -/
def Instr.opcode : Instr → Nat
  | .nop => 0x00
  | .clear => 0x01
  | .expand _ => 0x02
  | .enc _ _ _ => 0x03
  | .dec _ _ _ => 0x04
  | .rkrd _ => 0x05
  | .gfmul _ _ => 0x06
  | .gfinv _ => 0x07
  | .sbox _ => 0x08
  | .isbox _ => 0x09
  | .subb => 0x0A
  | .isubb => 0x0B
  | .shr => 0x0C
  | .ishr => 0x0D
  | .mixc => 0x0E
  | .imixc => 0x0F
  | .ark _ => 0x10

/-- The code of a key size (rule R93). -/
def klenCode : KeyLen → BitVec 2
  | .k128 => 0b00#2
  | .k192 => 0b01#2
  | .k256 => 0b10#2
  | .kbad => 0b11#2

/-- The code of a block mode (rule R92). -/
def modeCode : Mode → BitVec 1
  | .ecb => 0#1
  | .cbc => 1#1

/-- `cmd(op, mode, final, klen, dlen, a, b)` of rule R102: rule R90's format with RSV7 = RSV15 = 0. -/
def cmdWord (op : BitVec 5) (mode final : BitVec 1) (klen : BitVec 2) (dlen : BitVec 5) (a b : Byte) : Word :=
  op.setWidth 32 ||| mode.setWidth 32 <<< 5 ||| final.setWidth 32 <<< 6 ||| klen.setWidth 32 <<< 8
    ||| dlen.setWidth 32 <<< 10 ||| a.setWidth 32 <<< 16 ||| b.setWidth 32 <<< 24

/-- The word of a command that uses no field but OP. -/
def plainWord (op : Nat) : Word := cmdWord (BitVec.ofNat 5 op) 0#1 0#1 0#2 0#5 0#8 0#8

/-- The word of a command that uses the byte operands. -/
def byteWord (op : Nat) (a b : Byte) : Word := cmdWord (BitVec.ofNat 5 op) 0#1 0#1 0#2 0#5 a b

/-- The word of a command that uses MODE, FINAL and DLEN. -/
def blockWord (op : Nat) (mode : Mode) (final : Bool) (dlen : Nat) : Word :=
  cmdWord (BitVec.ofNat 5 op) (modeCode mode) (BitVec.ofBool final) 0#2 (BitVec.ofNat 5 dlen) 0#8 0#8

/-- The command word of a command, with every field it does not use 0 (rule R102). -/
def encode : Instr → Word
  | .nop => plainWord 0x00
  | .clear => plainWord 0x01
  | .expand klen => cmdWord 0x02#5 0#1 0#1 (klenCode klen) 0#5 0#8 0#8
  | .enc mode final dlen => blockWord 0x03 mode final dlen
  | .dec mode final dlen => blockWord 0x04 mode final dlen
  | .rkrd i => byteWord 0x05 (BitVec.ofNat 8 i) 0#8
  | .gfmul a b => byteWord 0x06 a b
  | .gfinv a => byteWord 0x07 a 0#8
  | .sbox a => byteWord 0x08 a 0#8
  | .isbox a => byteWord 0x09 a 0#8
  | .subb => plainWord 0x0A
  | .isubb => plainWord 0x0B
  | .shr => plainWord 0x0C
  | .ishr => plainWord 0x0D
  | .mixc => plainWord 0x0E
  | .imixc => plainWord 0x0F
  | .ark i => byteWord 0x10 (BitVec.ofNat 8 i) 0#8

/-- The bits of the word a command uses, with RSV7 and RSV15, which must be 0 in every command (rule R97). -/
def Instr.usedMask : Instr → Word
  | .nop => 0x0000809F#32
  | .clear => 0x0000809F#32
  | .expand _ => 0x0000839F#32
  | .enc _ _ _ => 0x0000FCFF#32
  | .dec _ _ _ => 0x0000FCFF#32
  | .rkrd _ => 0x000F809F#32
  | .gfmul _ _ => 0xFFFF809F#32
  | .gfinv _ => 0x00FF809F#32
  | .sbox _ => 0x00FF809F#32
  | .isbox _ => 0x00FF809F#32
  | .subb => 0x0000809F#32
  | .isubb => 0x0000809F#32
  | .shr => 0x0000809F#32
  | .ishr => 0x0000809F#32
  | .mixc => 0x0000809F#32
  | .imixc => 0x0000809F#32
  | .ark _ => 0x000F809F#32

/-- The 32-bit word the host writes to CMD for an instruction whose lowest `nbits` bits are `w`: the bits above
are 0. Commands are single words, so the word is the instruction (rule R100). -/
def wordOfTable (nbits w : Nat) : Word := BitVec.ofNat 32 (w % 2 ^ nbits)

/-- The command the decoder reads from such a word. -/
def decodeTableWord (nbits w : Nat) : Option Instr :=
  match decode (wordOfTable nbits w) with
  | .command i => some i
  | .illegal _ => none

end Sys2Proof
end

