-- ==== Sys2Proof/Machine/State.lean ====
section
/-! DEFINITION. The engine's architectural state (10_state.md rule R20, whose list is complete), the agents around
it as plain data, and the state after reset (rule R46). -/

namespace Sys2Proof.Machine

/-- The result codes of a completion (60_exceptions.md rule R300). -/
inductive ErrCode where
  /-- The command succeeded. -/
  | none
  /-- KLEN = 0b11, or no valid key schedule (KEYV = 0). -/
  | invalidKeyLength
  /-- DLEN is illegal for the command. -/
  | blockSizeMismatch
  /-- A final DEC found bad padding. -/
  | invalidPadding
  /-- A CBC command with IVMASK ≠ 0b1111. -/
  | ivLengthMismatch
  /-- RSV7 or RSV15 set, or OP in 0x11..0x1F. -/
  | illegalCommand
  deriving DecidableEq, Repr

/-- One step of the host program (70_reset_and_hazards.md rules R357, R358). `lanes` are the four byte enables of
the access (20_memory.md rule R66). -/
inductive HostStep where
  /-- `MemRead(off, 4)` when all four lanes are enabled. -/
  | read (off : BitVec 8) (lanes : BitVec 4)
  /-- `MemWrite(off, 4, data)` when all four lanes are enabled. -/
  | write (off : BitVec 8) (lanes : BitVec 4) (data : Word)
  /-- The polling loop of 30_encoding.md rule R103: read STATUS until its bit 0 is 0. -/
  | wait
  /-- Wait until the irq output is 1 (20_memory.md rule R74). -/
  | waitIrq
  deriving DecidableEq, Repr

/-- Whose move a step is, where the spec leaves it open (20_memory.md rule R72), and the platform's moves of the
reset input (70_reset_and_hazards.md rule R340). -/
inductive Turn where
  /-- The host moves first, if it has a step left. -/
  | host
  /-- The engine moves first, if a command is pending. -/
  | engine
  /-- The platform drives `rst` to a level. -/
  | reset (level : Bool)
  deriving DecidableEq, Repr

/-- Why the machine stops with a fault: never. The engine stalls or errors no transaction (20_memory.md rule R61)
and has no fatal or stuck state (60_exceptions.md rule R307), so this type has no constructor. -/
inductive Fault where
  deriving DecidableEq, Repr

/-- Why an instruction is refused. -/
inductive Refusal where
  /-- Raised by an arm of `exec` whose instruction has no meaning yet; safe (the model stops where the hardware
  goes on). No arm raises it: every command of the table has its meaning. -/
  | notModelled (mnemonic : String)
  deriving DecidableEq, Repr

/-- The state. The fields down to `pend` are rule R20's table, in its order; `rst` is the reset input; the last
three are the model's own: the outside world as plain data (log entries 1 and 2). -/
structure State where
  /-- CTRL.IE (rule R23). -/
  ie : Bool
  /-- STATUS.BUSY (rule R25). -/
  busy : Bool
  /-- STATUS.DONE (rule R26). -/
  done : Bool
  /-- STATUS.OVR (rule R27). -/
  ovr : Bool
  /-- STATUS.ERR (rule R30). -/
  err : BitVec 3
  /-- STATUS.OUTLEN (rule R30). -/
  outlen : BitVec 5
  /-- STATUS.KEYV (rule R28). -/
  keyv : Bool
  /-- STATUS.NR (rule R28). -/
  nr : BitVec 4
  /-- IVMASK (rule R29). -/
  ivmask : BitVec 4
  /-- KEY[0..7] (rule R32). -/
  key : Vector Word 8
  /-- RK[0..14] (rule R31). -/
  rk : Vector Block 15
  /-- CV (rule R33). -/
  cv : Block
  /-- DIN (rule R34). -/
  din : Block
  /-- DOUT (rule R35). -/
  dout : Block
  /-- RESULT (rule R37). -/
  result : Byte
  /-- PEND (rule R38). -/
  pend : Word
  /-- The level of the reset input (70_reset_and_hazards.md rule R340). -/
  rst : Bool
  /-- What the host still has to do, first step first (70_reset_and_hazards.md rule R358). -/
  program : List HostStep
  /-- The values the host's reads returned, newest first (70_reset_and_hazards.md rule R358). -/
  reads : List Word
  /-- The schedule: one entry a step; when it is used up, the engine moves first (log entry 1). -/
  turns : List Turn
  deriving DecidableEq, Repr

/-- The machine right after reset is released: rule R46's values, and nothing outside the engine pending. -/
def State.reset : State where
  ie := false
  busy := false
  done := false
  ovr := false
  err := 0#3
  outlen := 0#5
  keyv := false
  nr := 0#4
  ivmask := 0b0000#4
  key := Vector.replicate 8 0#32
  rk := Vector.replicate 15 zeroBlock
  cv := zeroBlock
  din := zeroBlock
  dout := zeroBlock
  result := 0x00#8
  pend := 0x00000000#32
  rst := false
  program := []
  reads := []
  turns := []

end Sys2Proof.Machine
end

