-- ==== Sys2Proof/Machine/Bytes.lean ====
section
/-! DEFINITION. Byte order between blocks, key words and 32-bit register words (20_memory.md rule R60,
00_scope.md rules R13, R14): decided here, once. -/

namespace Sys2Proof.Machine

/-- Byte j of a word, `W[31-8j : 24-8j]`: byte 0 is the most significant (rule R60). Used for j in 0..3. -/
def wordByte (w : Word) (j : Nat) : Byte := w.extractLsb' (24 - 8 * j) 8

/-- The word `w0 ‖ w1 ‖ w2 ‖ w3`, w0 in bits [31:24] (rule R13). -/
def bytesWord (w0 w1 w2 w3 : Byte) : Word :=
  w0.setWidth 32 <<< 24 ||| w1.setWidth 32 <<< 16 ||| w2.setWidth 32 <<< 8 ||| w3.setWidth 32

/-- Word k of four, for k in 0..3. -/
def pickWord (w0 w1 w2 w3 : Word) (k : Nat) : Word :=
  match k with
  | 0 => w0
  | 1 => w1
  | 2 => w2
  | _ => w3

/-- `block(W0, W1, W2, W3)` (rules R14, R60): byte 4k + j is byte j of word k. -/
def blockOfWords (w0 w1 w2 w3 : Word) : Block :=
  Vector.ofFn fun n => wordByte (pickWord w0 w1 w2 w3 (n.val / 4)) (n.val % 4)

/-- `word(b, k)` (rules R14, R60): the word of bytes 4k..4k+3. -/
def blockWordAt (b : Block) (k : Fin 4) : Word :=
  bytesWord b[4 * k.val] b[4 * k.val + 1] b[4 * k.val + 2] b[4 * k.val + 3]

/-- Replace bytes 4k..4k+3 of a block by a word (10_state.md rules R33, R34). -/
def setBlockWord (b : Block) (k : Fin 4) (d : Word) : Block :=
  Vector.ofFn fun n => if n.val / 4 = k.val then wordByte d (n.val % 4) else b[n]

/-- The block a hex string of 32 digits names, byte 0 first (00_scope.md rule R10). -/
def hexBlock (h : Nat) : Block := Vector.ofFn fun k => BitVec.ofNat 8 (h >>> (8 * (15 - k.val)))

end Sys2Proof.Machine
end

