-- ==== Sys2Proof/Machine/Ops.lean ====
section
/-! DEFINITION. The named operations on the state: how a command ends, with success or by taking its exception
(an error completion), and the named updates the meanings and the host accesses are made of. -/

namespace Sys2Proof.Machine

/-- One outcome of the machine. -/
abbrev Result := Host.Outcome State Fault Refusal

/-- The numeric code of 60_exceptions.md rule R300. -/
def ErrCode.code : ErrCode → BitVec 3
  | .none => 0#3
  | .invalidKeyLength => 1#3
  | .blockSizeMismatch => 2#3
  | .invalidPadding => 3#3
  | .ivLengthMismatch => 4#3
  | .illegalCommand => 5#3

/-- The end-of-step writes of every completion (10_state.md rule R43): `BUSY <- 0; DONE <- 1; ERR <- code`. -/
def State.finish (e : ErrCode) (s : State) : State :=
  { s with busy := false, done := true, err := e.code }

/-- TAKING AN EXCEPTION: `raise Error(code)` (00_scope.md rule R14, 60_exceptions.md rule R303). The completion
records the code and writes nothing else: no program counter, mode or cause register exists (rule R314), and
control goes nowhere. There is no return from it: the engine is then idle and accepts the next command
(rule R315). -/
def raise (e : ErrCode) (s : State) : Result := .next (s.finish e)

/-- A command that succeeded: its writes together with the completion's (10_state.md rules R22, R43). -/
def succeed (s : State) : Result := .next (s.finish .none)

/-! ### The writes of the commands -/

/-- `DOUT <- b` (10_state.md rule R35). -/
def State.putDout (b : Block) (s : State) : State := { s with dout := b }

/-- `RESULT <- r` (10_state.md rule R37). -/
def State.putResult (r : Byte) (s : State) : State := { s with result := r }

/-- `OUTLEN <- n` (10_state.md rule R30). -/
def State.putOutlen (n : Nat) (s : State) : State := { s with outlen := BitVec.ofNat 5 n }

/-- `CV <- b` by a CBC command (10_state.md rule R33). -/
def State.putCv (b : Block) (s : State) : State := { s with cv := b }

/-- EXPAND's writes: the whole store, `KEYV <- 1` and `NR <- n` (41_key_schedule.md rule R170). -/
def State.putSchedule (rk : Vector Block 15) (n : Nat) (s : State) : State :=
  { s with rk := rk, keyv := true, nr := BitVec.ofNat 4 n }

/-- CLEAR's writes (44_control.md rule R272); CTRL.IE and PEND are kept. -/
def State.wipe (s : State) : State :=
  { s with
    key := Vector.replicate 8 0#32, rk := Vector.replicate 15 zeroBlock, keyv := false, nr := 0#4
    cv := zeroBlock, ivmask := 0b0000#4, din := zeroBlock, dout := zeroBlock, result := 0x00#8
    outlen := 0#5, ovr := false }

/-! ### The writes of the host's accesses (20_memory.md rule R65) -/

/-- A write to CTRL: only bit 0 has an effect (10_state.md rule R23). -/
def State.writeCtrl (d : Word) (s : State) : State := { s with ie := d.getLsbD 0 }

/-- A write to STATUS: bits 1 and 2 are write-one-to-clear, the others are ignored (10_state.md rule R24). -/
def State.writeStatus (d : Word) (s : State) : State :=
  { s with done := s.done && !d.getLsbD 1, ovr := s.ovr && !d.getLsbD 2 }

/-- The accept: `PEND <- d; BUSY <- 1; DONE <- 0` (10_state.md rule R42). -/
def State.accept (d : Word) (s : State) : State := { s with pend := d, busy := true, done := false }

/-- A write to KEYk: `KEY[k] <- d; KEYV <- 0; NR <- 0` (10_state.md rule R32). -/
def State.writeKey (k : Fin 8) (d : Word) (s : State) : State :=
  { s with key := s.key.set k d, keyv := false, nr := 0#4 }

/-- A write to IVk: the bytes of CV, and IVMASK[k] (10_state.md rules R29, R33). -/
def State.writeIv (k : Fin 4) (d : Word) (s : State) : State :=
  { s with cv := setBlockWord s.cv k d, ivmask := s.ivmask ||| (1#4 <<< k.val) }

/-- A write to DINk (10_state.md rule R34). -/
def State.writeDin (k : Fin 4) (d : Word) (s : State) : State := { s with din := setBlockWord s.din k d }

/-- A write dropped because BUSY is 1: it only sets OVR (10_state.md rules R27, R44). -/
def State.dropWrite (s : State) : State := { s with ovr := true }

/-- Every engine element at its reset value, with the outside world kept and `rst` at the given level
(10_state.md rule R46, 70_reset_and_hazards.md rules R340, R341). -/
def State.resetEngine (level : Bool) (s : State) : State :=
  { State.reset with rst := level, program := s.program, reads := s.reads, turns := s.turns }

/-! ### The outside world's own moves -/

/-- Record a value that a host read returned. -/
def State.logRead (v : Word) (s : State) : State := { s with reads := v :: s.reads }

/-- The host has this much left to do. -/
def State.setProgram (p : List HostStep) (s : State) : State := { s with program := p }

/-- One entry of the schedule is used up. -/
def State.takeTurn (s : State) : State := { s with turns := s.turns.tail }

end Sys2Proof.Machine
end

