-- ==== Sys2Proof/Machine/Flags.lean ====
section
/-! DEFINITION. What is computed from the flags: IVV, the STATUS word and the irq output. -/

namespace Sys2Proof.Machine

/-- STATUS.IVV: all four IV words were written (10_state.md rule R29). -/
def State.ivv (s : State) : Bool := s.ivmask == 0b1111#4

/-- The interrupt output, a level: `CTRL.IE AND DONE` (10_state.md rule R45, 60_exceptions.md rule R310). -/
def State.irq (s : State) : Bool := s.ie && s.done

/-- A flag at bit n of a register word. -/
def flagAt (b : Bool) (n : Nat) : Word := (BitVec.ofBool b).setWidth 32 <<< n

/-- The value a read of STATUS returns (10_state.md rule R24, 20_memory.md rule R64): BUSY [0], DONE [1], OVR [2],
KEYV [3], IVV [4], ERR [7:5], OUTLEN [12:8], NR [19:16]; the other bits are 0. -/
def State.statusWord (s : State) : Word :=
  flagAt s.busy 0 ||| flagAt s.done 1 ||| flagAt s.ovr 2 ||| flagAt s.keyv 3 ||| flagAt s.ivv 4
    ||| s.err.setWidth 32 <<< 5 ||| s.outlen.setWidth 32 <<< 8 ||| s.nr.setWidth 32 <<< 16

end Sys2Proof.Machine
end

