-- ==== Sys2Proof/Machine/Operands.lean ====
section
/-! DEFINITION. The operand forms of the commands: the key size of EXPAND, the round key an index names, the
legal byte counts of ENC and DEC, and the checks the cipher commands share. -/

namespace Sys2Proof.Machine

/-- Nk and Nr of a key size; none for KLEN = 0b11 (30_encoding.md rule R93). -/
def keyParams : KeyLen → Option (Nat × Nat)
  | .k128 => some (4, 10)
  | .k192 => some (6, 12)
  | .k256 => some (8, 14)
  | .kbad => none

/-- The round key an index names: RK[i] for i in 0..14, the zero block above (41_key_schedule.md rule R175,
42_round_pipeline.md rule R216; log entry 4 for the cipher's own reads). -/
def roundKey (rk : Vector Block 15) (i : Nat) : Block := if h : i < 15 then rk[i] else zeroBlock

/-- DLEN is legal for ENC (30_encoding.md rule R94): exactly 16, or 0..15 on the final block. -/
def encLenOk (final : Bool) (dlen : Nat) : Bool := if final then decide (dlen ≤ 15) else dlen == 16

/-- DLEN is legal for DEC (30_encoding.md rule R94): exactly 16. -/
def decLenOk (dlen : Nat) : Bool := dlen == 16

/-- RKRD and ARK need a valid schedule (92_eei_decisions.md D10). -/
def scheduleError (s : State) : Option ErrCode := if s.keyv then none else some .invalidKeyLength

/-- The error ENC or DEC raises before it computes, in the order of priority of 60_exceptions.md rule R302. -/
def cipherError (mode : Mode) (lenOk : Bool) (s : State) : Option ErrCode :=
  if s.keyv = false then some .invalidKeyLength
  else if lenOk = false then some .blockSizeMismatch
  else if mode = .cbc ∧ s.ivmask ≠ 0b1111#4 then some .ivLengthMismatch
  else none

/-- `(MODE = 1) ? b ⊕ CV : b`, the chaining of 43_cipher_modes.md rules R240 and R243. -/
def chain (mode : Mode) (cv b : Block) : Block :=
  match mode with
  | .ecb => b
  | .cbc => xorBlock b cv

/-- `if MODE = 1 then CV <- b` (43_cipher_modes.md rules R242, R245); ECB leaves CV (rule R234). -/
def putChain (mode : Mode) (b : Block) (s : State) : State :=
  match mode with
  | .ecb => s
  | .cbc => s.putCv b

end Sys2Proof.Machine
end

