-- ==== Sys2Proof/Machine/Rom.lean ====
section
/-! DEFINITION. The ROMs: S, Sinv and Rcon (10_state.md rule R39), fixed at design time. -/

namespace Sys2Proof.Machine

/-- The S-box ROM, one row of 40_field_sbox.md rule R130's table an entry: row Hx, columns 0 to f. -/
def sboxRows : Vector Block 16 := #v[
  hexBlock 0x637c777bf26b6fc53001672bfed7ab76,
  hexBlock 0xca82c97dfa5947f0add4a2af9ca472c0,
  hexBlock 0xb7fd9326363ff7cc34a5e5f171d83115,
  hexBlock 0x04c723c31896059a071280e2eb27b275,
  hexBlock 0x09832c1a1b6e5aa0523bd6b329e32f84,
  hexBlock 0x53d100ed20fcb15b6acbbe394a4c58cf,
  hexBlock 0xd0efaafb434d338545f9027f503c9fa8,
  hexBlock 0x51a3408f929d38f5bcb6da2110fff3d2,
  hexBlock 0xcd0c13ec5f974417c4a77e3d645d1973,
  hexBlock 0x60814fdc222a908846eeb814de5e0bdb,
  hexBlock 0xe0323a0a4906245cc2d3ac629195e479,
  hexBlock 0xe7c8376d8dd54ea96c56f4ea657aae08,
  hexBlock 0xba78252e1ca6b4c6e8dd741f4bbd8b8a,
  hexBlock 0x703eb5664803f60e613557b986c11d9e,
  hexBlock 0xe1f8981169d98e949b1e87e9ce5528df,
  hexBlock 0x8ca1890dbfe6426841992d0fb054bb16]

/-- The inverse S-box ROM, one row of 40_field_sbox.md rule R131's table an entry. -/
def invSboxRows : Vector Block 16 := #v[
  hexBlock 0x52096ad53036a538bf40a39e81f3d7fb,
  hexBlock 0x7ce339829b2fff87348e4344c4dee9cb,
  hexBlock 0x547b9432a6c2233dee4c950b42fac34e,
  hexBlock 0x082ea16628d924b2765ba2496d8bd125,
  hexBlock 0x72f8f66486689816d4a45ccc5d65b692,
  hexBlock 0x6c704850fdedb9da5e154657a78d9d84,
  hexBlock 0x90d8ab008cbcd30af7e45805b8b34506,
  hexBlock 0xd02c1e8fca3f0f02c1afbd0301138a6b,
  hexBlock 0x3a9111414f67dcea97f2cfcef0b4e673,
  hexBlock 0x96ac7422e7ad3585e2f937e81c75df6e,
  hexBlock 0x47f11a711d29c5896fb7620eaa18be1b,
  hexBlock 0xfc563e4bc6d279209adbc0fe78cd5af4,
  hexBlock 0x1fdda8338807c731b11210592780ec5f,
  hexBlock 0x60517fa919b54a0d2de57a9f93c99cef,
  hexBlock 0xa0e03b4dae2af5b0c8ebbb3c83539961,
  hexBlock 0x172b047eba77d626e169146355210c7d]

/-- The entry of a 16 × 16 ROM: row Hx and column L give entry 0xHL. -/
def romEntry (rows : Vector Block 16) (a : Byte) : Byte := rows[a.toNat / 16][a.toNat % 16]

/-- `S[a]` (rule R130). -/
def sboxRom (a : Byte) : Byte := romEntry sboxRows a

/-- `Sinv[a]` (rule R131). -/
def invSboxRom (a : Byte) : Byte := romEntry invSboxRows a

/-- `Rcon[j]` for j in 1..10 (41_key_schedule.md rule R163). No expansion reads another entry. -/
def rcon (j : Nat) : Byte :=
  match j with
  | 1 => 0x01#8
  | 2 => 0x02#8
  | 3 => 0x04#8
  | 4 => 0x08#8
  | 5 => 0x10#8
  | 6 => 0x20#8
  | 7 => 0x40#8
  | 8 => 0x80#8
  | 9 => 0x1B#8
  | 10 => 0x36#8
  | _ => 0x00#8

end Sys2Proof.Machine
end

