-- ==== Sys2Proof/Machine/Field.lean ====
section
/-! DEFINITION. The GF(2^8) field unit and the four commands that expose it and the S-box ROMs
(40_field_sbox.md rules R120 to R143). -/

namespace Sys2Proof.Machine

/-- `xtime(a) = a ⊗ 0x02` (rule R121): shift, and reduce by 0x1B when bit 7 fell out. -/
def xtime (a : Byte) : Byte := (a <<< 1) ^^^ (if a.getLsbD 7 then 0x1B#8 else 0x00#8)

/-- Turn i of the loop of `gmul`, on the pair (p, a). -/
def gmulTurn (b : Byte) (pa : Byte × Byte) (i : Nat) : Byte × Byte :=
  (if b.getLsbD i then pa.1 ^^^ pa.2 else pa.1, xtime pa.2)

/-- `gmul(a, b)`, the product in GF(2^8) (rule R120). -/
def gmul (a b : Byte) : Byte := ((List.range 8).foldl (gmulTurn b) (0x00#8, a)).1

/-- `a^n`, the product of n factors a (rule R123). -/
def gpow (a : Byte) : Nat → Byte
  | 0 => 0x01#8
  | n + 1 => gmul a (gpow a n)

/-- a squared. -/
def gsquare (a : Byte) : Byte := gmul a a

/-- `invert(a) = a^254` (rules R123, R124): the product of a^2, a^4, …, a^128, by repeated squaring. -/
def invert (a : Byte) : Byte :=
  let a2 := gsquare a
  let a4 := gsquare a2
  let a8 := gsquare a4
  let a16 := gsquare a8
  let a32 := gsquare a16
  let a64 := gsquare a32
  let a128 := gsquare a64
  gmul a128 (gmul a64 (gmul a32 (gmul a16 (gmul a8 (gmul a4 a2)))))

/-- The byte whose bit i is `f i`. -/
def byteOfBits (f : Nat → Bool) : Byte :=
  (List.range 8).foldl (fun acc i => acc ||| ((BitVec.ofBool (f i)).setWidth 8 <<< i)) 0x00#8

/-- The affine transform of the S-box's construction (rule R126), c = 0x63. -/
def affine (x : Byte) : Byte :=
  byteOfBits fun i =>
    x.getLsbD i ^^ x.getLsbD ((i + 4) % 8) ^^ x.getLsbD ((i + 5) % 8) ^^ x.getLsbD ((i + 6) % 8)
      ^^ x.getLsbD ((i + 7) % 8) ^^ (0x63#8).getLsbD i

/-- The inverse affine transform (rule R127), d = 0x05. -/
def invaffine (y : Byte) : Byte :=
  byteOfBits fun i =>
    y.getLsbD ((i + 2) % 8) ^^ y.getLsbD ((i + 5) % 8) ^^ y.getLsbD ((i + 7) % 8) ^^ (0x05#8).getLsbD i

/-- GFMUL (rule R140): `RESULT <- A ⊗ B`. -/
def execGfmul (a b : Byte) (s : State) : Result := succeed (s.putResult (gmul a b))

/-- GFINV (rule R141): `RESULT <- invert(A)`. -/
def execGfinv (a : Byte) (s : State) : Result := succeed (s.putResult (invert a))

/-- SBOX (rule R142): `RESULT <- S[A]`. -/
def execSbox (a : Byte) (s : State) : Result := succeed (s.putResult (sboxRom a))

/-- ISBOX (rule R143): `RESULT <- Sinv[A]`. -/
def execIsbox (a : Byte) (s : State) : Result := succeed (s.putResult (invSboxRom a))

end Sys2Proof.Machine
end

