-- ==== Sys2Proof/Machine/KeySchedule.lean ====
section
/-! DEFINITION. The key-schedule expander, EXPAND and RKRD (41_key_schedule.md rules R160 to R175). -/

namespace Sys2Proof.Machine

/-- `RotWord` (rule R161): the bytes move left by one position. -/
def rotWord (t : Word) : Word := bytesWord (wordByte t 1) (wordByte t 2) (wordByte t 3) (wordByte t 0)

/-- `SubWord` (rule R162): each byte through the S-box. -/
def subWord (t : Word) : Word :=
  bytesWord (sboxRom (wordByte t 0)) (sboxRom (wordByte t 1)) (sboxRom (wordByte t 2)) (sboxRom (wordByte t 3))

/-- The transform of the previous word for word i (rules R164, R165). -/
def scheduleTransform (nk i : Nat) (t : Word) : Word :=
  if i % nk = 0 then subWord (rotWord t) ^^^ bytesWord (rcon (i / nk)) 0x00#8 0x00#8 0x00#8
  else if nk = 8 ∧ i % nk = 4 then subWord t
  else t

/-- The loop of rule R164 from word i on, for `n` more words: `ws` holds the words before i, newest first, so
`w[i-1]` is its entry 0 and `w[i-Nk]` its entry Nk - 1. -/
def expandFrom (nk : Nat) : (n i : Nat) → (ws : List Word) → List Word
  | 0, _, ws => ws
  | n + 1, i, ws => expandFrom nk n (i + 1) ((ws.getD (nk - 1) 0#32 ^^^ scheduleTransform nk i (ws.getD 0 0#32)) :: ws)

/-- `expand(KEY, Nk, Nr)` (rule R164): the words w[0 .. 4(Nr+1) - 1], first word first. -/
def expandKey (key : Vector Word 8) (nk nr : Nat) : List Word :=
  (expandFrom nk (4 * (nr + 1) - nk) nk (key.toList.take nk).reverse).reverse

/-- The round key of words w[4r .. 4r+3] (rule R166). -/
def scheduleBlock (ws : List Word) (r : Nat) : Block :=
  blockOfWords (ws.getD (4 * r) 0#32) (ws.getD (4 * r + 1) 0#32) (ws.getD (4 * r + 2) 0#32) (ws.getD (4 * r + 3) 0#32)

/-- The round-key store EXPAND writes (rule R170): RK[0..Nr] from the words, zero blocks above. -/
def roundKeys (key : Vector Word 8) (nk nr : Nat) : Vector Block 15 :=
  let ws := expandKey key nk nr
  Vector.ofFn fun r => if r.val ≤ nr then scheduleBlock ws r.val else zeroBlock

/-- EXPAND (rule R170). -/
def execExpand (klen : KeyLen) (s : State) : Result :=
  match keyParams klen with
  | none => raise .invalidKeyLength s
  | some (nk, nr) => succeed (s.putSchedule (roundKeys s.key nk nr) nr)

/-- RKRD (rule R175). -/
def execRkrd (i : Nat) (s : State) : Result :=
  match scheduleError s with
  | some e => raise e s
  | none => succeed (s.putDout (roundKey s.rk i))

end Sys2Proof.Machine
end

