-- ==== Sys2Proof/Machine/RoundPipeline.lean ====
section
/-! DEFINITION. The round transforms, the forward and inverse cipher, and the single-stage commands
(42_round_pipeline.md rules R190 to R216). -/

namespace Sys2Proof.Machine

/-- SubBytes (rule R190). -/
def subBytes (b : Block) : Block := Vector.ofFn fun k => sboxRom b[k]

/-- InvSubBytes (rule R191). -/
def invSubBytes (b : Block) : Block := Vector.ofFn fun k => invSboxRom b[k]

/-- The state's entry in row r and column c, both taken mod 4: `s[r][c] = b[r + 4c]` (00_scope.md rule R11). -/
def cell (b : Block) (r c : Nat) : Byte := b[r % 4 + 4 * (c % 4)]

/-- The block whose state has entry `f r c` in row r and column c. -/
def ofCells (f : (r c : Nat) → Byte) : Block := Vector.ofFn fun n => f (n.val % 4) (n.val / 4)

/-- ShiftRows (rule R192): row r moves left by r. -/
def shiftRows (b : Block) : Block := ofCells fun r c => cell b r (c + r)

/-- InvShiftRows (rule R193): row r moves right by r; `c - r` mod 4 is `c + (4 - r)` mod 4. -/
def invShiftRows (b : Block) : Block := ofCells fun r c => cell b r (c + (4 - r))

/-- Row r of a column times the circulant matrix with first row (m0, m1, m2, m3): the coefficient of entry r of
the column is m0, of the next entry m1, and so on around the column. -/
def circulantRow (m0 m1 m2 m3 : Byte) (b : Block) (r c : Nat) : Byte :=
  gmul m0 (cell b r c) ^^^ gmul m1 (cell b (r + 1) c) ^^^ gmul m2 (cell b (r + 2) c) ^^^ gmul m3 (cell b (r + 3) c)

/-- MixColumns (rule R194): the circulant with first row (02, 03, 01, 01). -/
def mixColumns (b : Block) : Block := ofCells (circulantRow 0x02#8 0x03#8 0x01#8 0x01#8 b)

/-- InvMixColumns (rule R195): the circulant with first row (0E, 0B, 0D, 09). -/
def invMixColumns (b : Block) : Block := ofCells (circulantRow 0x0E#8 0x0B#8 0x0D#8 0x09#8 b)

/-- AddRoundKey (rule R196). -/
def addRoundKey (b k : Block) : Block := xorBlock b k

/-- Round r of the forward cipher, r in 1..Nr-1 (rule R199). -/
def cipherRound (rk : Vector Block 15) (b : Block) (r : Nat) : Block :=
  addRoundKey (mixColumns (shiftRows (subBytes b))) (roundKey rk r)

/-- `Cipher(b, RK, Nr)` (rule R199). The last round has no MixColumns. -/
def cipher (b : Block) (rk : Vector Block 15) (nr : Nat) : Block :=
  let s := (List.range' 1 (nr - 1)).foldl (cipherRound rk) (addRoundKey b (roundKey rk 0))
  addRoundKey (shiftRows (subBytes s)) (roundKey rk nr)

/-- Round r of the inverse cipher, r in Nr-1..1 (rule R200). -/
def invCipherRound (rk : Vector Block 15) (b : Block) (r : Nat) : Block :=
  invSubBytes (invShiftRows (invMixColumns (addRoundKey b (roundKey rk r))))

/-- `InvCipher(b, RK, Nr)` (rule R200). -/
def invCipher (b : Block) (rk : Vector Block 15) (nr : Nat) : Block :=
  let s := invSubBytes (invShiftRows (addRoundKey b (roundKey rk nr)))
  addRoundKey ((List.range' 1 (nr - 1)).reverse.foldl (invCipherRound rk) s) (roundKey rk 0)

/-- SUBB (rule R210). -/
def execSubb (s : State) : Result := succeed (s.putDout (subBytes s.din))

/-- ISUBB (rule R211). -/
def execIsubb (s : State) : Result := succeed (s.putDout (invSubBytes s.din))

/-- SHR (rule R212). -/
def execShr (s : State) : Result := succeed (s.putDout (shiftRows s.din))

/-- ISHR (rule R213). -/
def execIshr (s : State) : Result := succeed (s.putDout (invShiftRows s.din))

/-- MIXC (rule R214). -/
def execMixc (s : State) : Result := succeed (s.putDout (mixColumns s.din))

/-- IMIXC (rule R215). -/
def execImixc (s : State) : Result := succeed (s.putDout (invMixColumns s.din))

/-- ARK (rule R216). -/
def execArk (i : Nat) (s : State) : Result :=
  match scheduleError s with
  | some e => raise e s
  | none => succeed (s.putDout (addRoundKey s.din (roundKey s.rk i)))

end Sys2Proof.Machine
end

