-- ==== Sys2Proof/Machine/Cipher.lean ====
section
/-! DEFINITION. ENC and DEC: one block in ECB or CBC mode, with padding on the final block
(43_cipher_modes.md rules R230 to R250). -/

namespace Sys2Proof.Machine

/-- `pad(DIN, L)` (rule R232): L data bytes, then N = 16 - L bytes of value N. Used for L in 0..15. -/
def pad (b : Block) (l : Nat) : Block :=
  Vector.ofFn fun k => if k.val < l then b[k] else BitVec.ofNat 8 (16 - l)

/-- The pad length N a decrypted block names, its last byte (rule R233). -/
def padLength (p : Block) : Nat := p[15].toNat

/-- `unpad_ok(P)` (rule R233): 1 ≤ N ≤ 16 and the last N bytes all hold N. -/
def unpadOk (p : Block) : Bool :=
  decide (1 ≤ padLength p) && decide (padLength p ≤ 16)
    && (List.finRange 16).all fun k => decide (k.val < 16 - padLength p) || p[k] == p[15]

/-- What ENC enciphers: the padded block on the final block, else DIN (rule R240). -/
def encInput (final : Bool) (dlen : Nat) (din : Block) : Block := if final then pad din dlen else din

/-- ENC (rule R240). -/
def execEnc (mode : Mode) (final : Bool) (dlen : Nat) (s : State) : Result :=
  match cipherError mode (encLenOk final dlen) s with
  | some e => raise e s
  | none =>
    let c := cipher (chain mode s.cv (encInput final dlen s.din)) s.rk s.nr.toNat
    succeed (putChain mode c ((s.putDout c).putOutlen 16))

/-- OUTLEN after a DEC that gave the block P (rules R243, R246). -/
def decOutlen (final : Bool) (p : Block) : Nat := if final then 16 - padLength p else 16

/-- DEC (rule R243). -/
def execDec (mode : Mode) (final : Bool) (dlen : Nat) (s : State) : Result :=
  match cipherError mode (decLenOk dlen) s with
  | some e => raise e s
  | none =>
    let p := chain mode s.cv (invCipher s.din s.rk s.nr.toNat)
    if final && !unpadOk p then raise .invalidPadding s
    else succeed (putChain mode s.din ((s.putDout p).putOutlen (decOutlen final p)))

end Sys2Proof.Machine
end

