-- ==== Sys2Proof/Machine/Control.lean ====
section
/-! DEFINITION. NOP and CLEAR (44_control.md rules R270, R272). -/

namespace Sys2Proof.Machine

/-- NOP (rule R270): no effect beyond the completion's. -/
def execNop (s : State) : Result := succeed s

/-- CLEAR (rule R272): zeroize key material and data. -/
def execClear (s : State) : Result := succeed s.wipe

end Sys2Proof.Machine
end

