-- ==== Sys2Proof/Machine/Registers.lean ====
section
/-! DEFINITION. The register window and the host's reads and writes of it (20_memory.md rules R62 to R66). -/

namespace Sys2Proof.Machine

/-- The registers of rule R62's map. -/
inductive Reg where
  | ctrl
  | status
  | cmd
  | result
  | key (k : Fin 8)
  | iv (k : Fin 4)
  | din (k : Fin 4)
  | dout (k : Fin 4)
  | id
  /-- The reserved offsets (rule R63). -/
  | reserved
  deriving DecidableEq, Repr

/-- The register at word number n of the window, its offset divided by 4 (rule R62). -/
def regOfWord (n : Nat) : Reg :=
  if n = 0 then .ctrl
  else if n = 1 then .status
  else if n = 2 then .cmd
  else if n = 3 then .result
  else if h : 4 ≤ n ∧ n < 12 then .key ⟨n - 4, by omega⟩
  else if h : 12 ≤ n ∧ n < 16 then .iv ⟨n - 12, by omega⟩
  else if h : 16 ≤ n ∧ n < 20 then .din ⟨n - 16, by omega⟩
  else if h : 20 ≤ n ∧ n < 24 then .dout ⟨n - 20, by omega⟩
  else if n = 24 then .id
  else .reserved

/-- The offset of a register, `off(REG)` (30_encoding.md rule R101); for the reserved window its first offset. -/
def regOffset : Reg → BitVec 8
  | .ctrl => 0x00#8
  | .status => 0x04#8
  | .cmd => 0x08#8
  | .result => 0x0C#8
  | .key k => BitVec.ofNat 8 (0x10 + 4 * k.val)
  | .iv k => BitVec.ofNat 8 (0x30 + 4 * k.val)
  | .din k => BitVec.ofNat 8 (0x40 + 4 * k.val)
  | .dout k => BitVec.ofNat 8 (0x50 + 4 * k.val)
  | .id => 0x60#8
  | .reserved => 0x64#8

/-- The access is an aligned 32-bit access with all byte lanes enabled (rule R66). -/
def accessOk (off : BitVec 8) (lanes : BitVec 4) : Bool := off.toNat % 4 == 0 && lanes == 0b1111#4

/-- The value of a register as the host reads it (rule R64). -/
def regRead (r : Reg) (s : State) : Word :=
  match r with
  | .ctrl => (BitVec.ofBool s.ie).setWidth 32
  | .status => s.statusWord
  | .cmd => 0x00000000#32
  | .result => s.result.setWidth 32
  | .key _ => 0x00000000#32
  | .iv k => blockWordAt s.cv k
  | .din k => blockWordAt s.din k
  | .dout k => blockWordAt s.dout k
  | .id => Config.idValue
  | .reserved => 0x00000000#32

/-- The effect of a host write to a register (rule R65; 10_state.md rule R44 while BUSY is 1). -/
def regWrite (r : Reg) (d : Word) (s : State) : State :=
  match r with
  | .ctrl => s.writeCtrl d
  | .status => s.writeStatus d
  | .cmd => if s.busy then s.dropWrite else s.accept d
  | .key k => if s.busy then s.dropWrite else s.writeKey k d
  | .iv k => if s.busy then s.dropWrite else s.writeIv k d
  | .din k => if s.busy then s.dropWrite else s.writeDin k d
  | .result => s
  | .dout _ => s
  | .id => s
  | .reserved => s

/-- A host read: the register's value; 0 for a misaligned or sub-word access (rule R66) and while rst is
asserted (70_reset_and_hazards.md rule R340). It changes no state. -/
def memRead (off : BitVec 8) (lanes : BitVec 4) (s : State) : Word :=
  if s.rst then 0x00000000#32
  else if accessOk off lanes then regRead (regOfWord (off.toNat / 4)) s
  else 0x00000000#32

/-- A host write: no effect for a misaligned or sub-word access (rule R66) and while rst is asserted
(70_reset_and_hazards.md rule R340). -/
def memWrite (off : BitVec 8) (lanes : BitVec 4) (d : Word) (s : State) : State :=
  if s.rst then s
  else if accessOk off lanes then regWrite (regOfWord (off.toNat / 4)) d s
  else s

end Sys2Proof.Machine
end

