-- ==== Sys2Proof/Machine/HostSide.lean ====
section
/-! DEFINITION. The moves of the host and of the platform, and whose move a step is (20_memory.md rule R72,
70_reset_and_hazards.md rules R340, R357). -/

namespace Sys2Proof.Machine

/-- The host reads a register and the value is recorded. -/
def hostRead (off : BitVec 8) (lanes : BitVec 4) (s : State) : State := s.logRead (memRead off lanes s)

/-- One turn of the polling loop of 30_encoding.md rule R103: read STATUS; go on when its bit 0 is 0. -/
def hostPoll (rest : List HostStep) (s : State) : State :=
  let v := memRead 0x04#8 0b1111#4 s
  if v.getLsbD 0 then s.logRead v else (s.logRead v).setProgram rest

/-- The host's next step. With none left the host does nothing. -/
def hostMove (s : State) : State :=
  match s.program with
  | [] => s
  | .read off lanes :: rest => (hostRead off lanes s).setProgram rest
  | .write off lanes d :: rest => (memWrite off lanes d s).setProgram rest
  | .wait :: rest => hostPoll rest s
  | .waitIrq :: rest => if s.irq then s.setProgram rest else s

/-- The platform drives `rst` to a level. Asserting it puts every element at its reset value, which abandons a
pending command (rule R341); releasing it leaves them there (rule R340); keeping it released changes nothing. -/
def driveReset (level : Bool) (s : State) : State := if level || s.rst then s.resetEngine level else s

/-- A completion is enabled: a command is pending and rst is not asserted (10_state.md rule R43,
70_reset_and_hazards.md rule R340). -/
def completionEnabled (s : State) : Bool := s.busy && !s.rst

/-- Who moves. -/
inductive Move where
  | host
  | engine
  | platform (level : Bool)
  /-- Nobody has anything to do (60_exceptions.md rule R335: idle keeps all state). -/
  | idle
  deriving DecidableEq, Repr

/-- Who moves at this step: the schedule decides where both agents can. When it says nothing the engine goes
first, so that a pending command completes after finitely many host accesses (weak fairness, rule R72). -/
def nextMove (s : State) : Move :=
  match s.turns with
  | .reset level :: _ => .platform level
  | .host :: _ => if s.program ≠ [] then .host else if completionEnabled s then .engine else .idle
  | _ => if completionEnabled s then .engine else if s.program ≠ [] then .host else .idle

end Sys2Proof.Machine
end

