-- ==== Sys2Proof/Machine/Complete.lean ====
section
/-! DEFINITION. The engine's one step: it decodes PEND and performs the command (10_state.md rule R43). -/

namespace Sys2Proof.Machine

/-- The completion: the command PEND holds, or IllegalCommand (60_exceptions.md rule R305). -/
def complete (s : State) : Result :=
  match decode s.pend with
  | .command i => exec i s
  | .illegal _ => raise .illegalCommand s

/-- The move of an agent. -/
def moveOf (m : Move) (s : State) : Result :=
  match m with
  | .host => .next (hostMove s)
  | .engine => complete s
  | .platform level => .next (driveReset level s)
  | .idle => .next s

/-- The state in which a word has just been accepted and the engine moves next: rule R42's writes, with rst
released and the engine's turn put in front of the schedule. -/
def acceptNow (d : Word) (s : State) : State :=
  { s.accept d with rst := false, turns := .engine :: s.turns }

end Sys2Proof.Machine
end

