-- ==== Sys2Proof/Machine/Step.lean ====
section
/-! DEFINITION. One step of the machine: one move of the host, the engine or the platform (20_memory.md
rule R72). -/

namespace Sys2Proof.Machine

/-- One step: the schedule's entry is used up, and the agent whose move it is moves. -/
def step (s : State) : Host.Outcome State Fault Refusal := moveOf (nextMove s) s.takeTurn

/-- The state with an instruction where the engine takes its next one: pending in PEND, accepted as rule R42
says, with the engine's completion the very next step (log entry 3). -/
def State.withFetchWord (s : State) (nbits w : Nat) : State := acceptNow (wordOfTable nbits w) s

end Sys2Proof.Machine
end

