-- ==== Sys2Proof/Machine/Stream.lean ====
section
/-! DEFINITION. A message as the commands of its blocks: the host's stream procedures of 43_cipher_modes.md
rule R247 at the level of commands, each block written to DIN and each DOUT collected. The engine has no part of
this loop (rule R231); it is defined here to state what the commands compute together (rules R235, R246, R249). -/

namespace Sys2Proof.Machine

/-- Run one command on every block in turn: write it to DIN, run the command, check ERR = 0, read DOUT. None when
a command ends with an error. -/
def runStream (i : Instr) : State → List Block → Option (State × List Block)
  | s, [] => some (s, [])
  | s, b :: bs =>
    match exec i { s with din := b } with
    | .next t => if t.err = 0#3 then (runStream i t bs).map fun r => (r.1, t.dout :: r.2) else none
    | .fault _ => none
    | .refused _ => none

/-- Block j of a message, with 0 where the message has no byte. -/
def messageBlock (m : List Byte) (j : Nat) : Block := Vector.ofFn fun k => m.getD (16 * j + k.val) 0x00#8

/-- The full blocks of a message. -/
def fullBlocks (m : List Byte) : List Block := (List.range (m.length / 16)).map (messageBlock m)

/-- `encrypt_stream` (rule R247): the full blocks, then one final block with L mod 16 bytes of data. -/
def encryptMessage (mode : Mode) (s : State) (m : List Byte) : Option (State × List Block) :=
  match runStream (.enc mode false 16) s (fullBlocks m) with
  | none => none
  | some (t, cs) =>
    (runStream (.enc mode true (m.length % 16)) t [messageBlock m (m.length / 16)]).map fun r => (r.1, cs ++ r.2)

/-- `decrypt_stream` (rule R247): the earlier blocks, then the final block, of which the first OUTLEN bytes are
kept. None for an empty stream, which the host rejects, and when a command ends with an error. -/
def decryptMessage (mode : Mode) (s : State) (cs : List Block) : Option (List Byte) :=
  match cs.getLast? with
  | none => none
  | some last =>
    match runStream (.dec mode false 16) s cs.dropLast with
    | none => none
    | some (t, ps) =>
      (runStream (.dec mode true 16) t [last]).map fun r =>
        ps.flatMap (fun p => p.toList) ++ r.1.dout.toList.take r.1.outlen.toNat

end Sys2Proof.Machine
end

