-- ==== Sys2Proof/Machine/HostAsm.lean ====
section
/-! DEFINITION. The host assembly as lists of host steps (30_encoding.md rules R101 to R103), the stream programs of
43_cipher_modes.md rule R247, and the disassembler's text (30_encoding.md rule R104). -/

namespace Sys2Proof.Machine

/-- `wr REG, imm32` (rule R101). -/
def wr (r : Reg) (d : Word) : HostStep := .write (regOffset r) 0b1111#4 d

/-- `rd REG` (rule R101). -/
def rd (r : Reg) : HostStep := .read (regOffset r) 0b1111#4

/-- A command mnemonic: `wr CMD, <word>` (rule R102). -/
def issue (i : Instr) : HostStep := wr .cmd (encode i)

/-- `run <command>` (rule R103). -/
def run (i : Instr) : List HostStep := [issue i, .wait]

/-- `ack` (rule R103): clear DONE and OVR. -/
def ack : HostStep := wr .status 0x00000006#32

/-- `loadkey h` (rule R103), for 4, 6 or 8 words. -/
def loadkey (ws : List Word) : List HostStep :=
  ws.zipIdx.map fun wk => .write (BitVec.ofNat 8 (0x10 + 4 * wk.2)) 0b1111#4 wk.1

/-- `loadiv h` (rule R103). -/
def loadiv (b : Block) : List HostStep := (List.finRange 4).map fun k => wr (.iv k) (blockWordAt b k)

/-- `loadblk h` (rule R103). -/
def loadblk (b : Block) : List HostStep := (List.finRange 4).map fun k => wr (.din k) (blockWordAt b k)

/-- `readblk` (rule R103). -/
def readblk : List HostStep := (List.finRange 4).map fun k => rd (.dout k)

/-- `readiv` (rule R103). -/
def readiv : List HostStep := (List.finRange 4).map fun k => rd (.iv k)

/-- Load a key and expand it; in CBC mode load the IV: the opening of both procedures of rule R247. -/
def openStream (mode : Mode) (klen : KeyLen) (key : List Word) (iv : Block) : List HostStep :=
  loadkey key ++ run (.expand klen) ++ (match mode with | .ecb => [] | .cbc => loadiv iv)

/-- Load a block, run a command on it and read the result. -/
def blockSteps (i : Instr) (b : Block) : List HostStep := loadblk b ++ run i ++ readblk

/-- `encrypt_stream` (43_cipher_modes.md rule R247) as a host program. -/
def encryptProgram (mode : Mode) (klen : KeyLen) (key : List Word) (iv : Block) (m : List Byte) : List HostStep :=
  openStream mode klen key iv ++ (fullBlocks m).flatMap (blockSteps (.enc mode false 16))
    ++ blockSteps (.enc mode true (m.length % 16)) (messageBlock m (m.length / 16))

/-- `decrypt_stream` (43_cipher_modes.md rule R247) as a host program, for the blocks before the last and the
last. -/
def decryptProgram (mode : Mode) (klen : KeyLen) (key : List Word) (iv : Block) (cs : List Block) (last : Block) :
    List HostStep :=
  openStream mode klen key iv ++ cs.flatMap (blockSteps (.dec mode false 16)) ++ blockSteps (.dec mode true 16) last

/-! ### The disassembler -/

/-- A number as hexadecimal digits, at least `width` of them. -/
def hexDigits (width n : Nat) : String :=
  let ds := Nat.toDigits 16 n
  String.ofList (List.replicate (width - ds.length) '0' ++ ds)

/-- A byte as `0xNN`. -/
def hexByte (b : Byte) : String := "0x" ++ hexDigits 2 b.toNat

/-- The key sizes of `expand` (rule R102). -/
def klenName : KeyLen → String
  | .k128 => "k128"
  | .k192 => "k192"
  | .k256 => "k256"
  | .kbad => "kbad"

/-- The modes of `enc` and `dec` (rule R102). -/
def modeName : Mode → String
  | .ecb => "ecb"
  | .cbc => "cbc"

/-- The `.dlen=n` suffix of rule R102, when DLEN is not the 16 the spelling implies. -/
def dlenSuffix (dlen : Nat) : String := if dlen = 16 then "" else ".dlen=" ++ toString dlen

/-- A command in its rule R102 spelling (log entry 6 for a final ENC with DLEN above 15). -/
def spelling : Instr → String
  | .nop => "nop"
  | .clear => "clear"
  | .expand klen => "expand " ++ klenName klen
  | .enc mode false dlen => "enc." ++ modeName mode ++ dlenSuffix dlen
  | .enc mode true dlen =>
    "enc." ++ modeName mode ++ ".final"
      ++ (if dlen ≤ 15 then " " ++ toString dlen else ".dlen=" ++ toString dlen)
  | .dec mode final dlen => "dec." ++ modeName mode ++ (if final then ".final" else "") ++ dlenSuffix dlen
  | .rkrd i => "rkrd " ++ toString i
  | .gfmul a b => "gfmul " ++ hexByte a ++ ", " ++ hexByte b
  | .gfinv a => "gfinv " ++ hexByte a
  | .sbox a => "sbox " ++ hexByte a
  | .isbox a => "isbox " ++ hexByte a
  | .subb => "subb"
  | .isubb => "isubb"
  | .shr => "shr"
  | .ishr => "ishr"
  | .mixc => "mixc"
  | .imixc => "imixc"
  | .ark i => "ark " ++ toString i

/-- The fields of a word with their values, most significant last, where A is split as rule R95 splits it for the
round-key index: name, the bits of the field, its lowest bit, the digits it prints with. -/
def fieldTable : List (String × Word × Nat × Nat) :=
  [("MODE", 0x00000020#32, 5, 1), ("FINAL", 0x00000040#32, 6, 1), ("KLEN", 0x00000300#32, 8, 1),
   ("DLEN", 0x00007C00#32, 10, 2), ("A", 0x00FF0000#32, 16, 2), ("A[7:4]", 0x00F00000#32, 20, 1),
   ("B", 0xFF000000#32, 24, 2)]

/-- The field is wholly unused by a command with this mask; A[7:4] counts only where A[3:0] is used. -/
def fieldUnused (used : Word) (name : String) (bits : Word) : Bool :=
  (used &&& bits == 0#32) && (name != "A[7:4]" || used &&& 0x000F0000#32 != 0#32)

/-- The unused fields of a word that are not 0, each as `field=value` in braces (rule R104). -/
def unusedText (used p : Word) : String :=
  fieldTable.foldl (fun acc f =>
    if fieldUnused used f.1 f.2.1 && p &&& f.2.1 != 0#32 then
      acc ++ " " ++ String.singleton (Char.ofNat 0x7B) ++ f.1 ++ "=0x"
        ++ hexDigits f.2.2.2 ((p &&& f.2.1) >>> f.2.2.1).toNat ++ String.singleton (Char.ofNat 0x7D)
    else acc) ""

/-- The disassembly of a word in canonical form (rule R104). -/
def disassemble (p : Word) : String :=
  match decode p with
  | .command i => spelling i ++ unusedText i.usedMask p
  | .illegal _ => "cmd 0x" ++ hexDigits 8 p.toNat

end Sys2Proof.Machine
end

