-- ==== Sys2Proof/Machine/Platform.lean ====
section
/-! DEFINITION. Several engine instances on one platform (00_scope.md rule R9, 20_memory.md rules R70 and R78,
60_exceptions.md rule R332): each with its own BASE, state and irq. Addresses are 32 bits wide, the model's choice
(log entry 15). -/

namespace Sys2Proof.Machine

/-- One instance: its BASE address and its state. DESIGN CHOICE: the spec gives BASE and the host's addresses no
width (32 bits is the width of the data only); the model makes both 32 bits (log entry 15). -/
structure EngineAt where
  base : Word
  engine : State
  deriving DecidableEq, Repr

/-- A platform's instances. -/
abbrev Platform := List EngineAt

/-- ENGINES, the number of instances (00_scope.md rule R9). -/
def engines (p : Platform) : Nat := p.length

/-- The address lies in the 256-byte window at BASE (rules R62, R70). -/
def covers (e : EngineAt) (addr : Word) : Bool := addr.extractLsb' 8 24 == e.base.extractLsb' 8 24

/-- The offset of an address in its window (rule R61). -/
def windowOffset (addr : Word) : BitVec 8 := addr.setWidth 8

/-- What the parameters of a platform meet: ENGINES ≥ 1 (rules R9, R332), every BASE a multiple of 256 (rule R70),
and each instance with a BASE of its own (rule R332). -/
def platformOk (p : Platform) : Bool :=
  decide (1 ≤ engines p) && p.all (fun e => e.base.setWidth 8 == 0#8) && decide (p.map fun e => e.base).Nodup

/-- The number of the instance an address belongs to, if any; the rest of the address map is the platform's
(rule R70). -/
def instanceOf (p : Platform) (addr : Word) : Option Nat := p.findIdx? fun e => covers e addr

/-- A bus read at an address of the platform; none where no engine answers. -/
def busRead (p : Platform) (addr : Word) (lanes : BitVec 4) : Option Word :=
  (p.find? fun e => covers e addr).map fun e => memRead (windowOffset addr) lanes e.engine

/-- A bus write at an address of the platform: it reaches one instance only. -/
def busWrite (p : Platform) (addr : Word) (lanes : BitVec 4) (d : Word) : Platform :=
  match instanceOf p addr with
  | none => p
  | some k => p.modify k fun e => { e with engine := memWrite (windowOffset addr) lanes d e.engine }

/-- Instance k takes one step; the others do not move (rule R78: their steps interleave freely). -/
def platformStep (k : Nat) (p : Platform) : Host.Outcome Platform Fault Refusal :=
  match p[k]? with
  | none => .next p
  | some e =>
    match step e.engine with
    | .next t => .next (p.set k { e with engine := t })
    | .fault r => .fault r
    | .refused r => .refused r

/-- The irq outputs, one an instance (rule R332). -/
def irqLines (p : Platform) : List Bool := p.map fun e => e.engine.irq

end Sys2Proof.Machine
end

