-- ==== Sys2Proof/Machine/Stages.lean ====
section
/-! DEFINITION. The pipeline as the fixed sequence of stages its sequencer runs (42_round_pipeline.md rule R202,
10_state.md rule R21). -/

namespace Sys2Proof.Machine

/-- One stage of the pipeline. A round-key stage names the round key it reads. -/
inductive Stage where
  | addKey (r : Nat)
  | sub
  | shift
  | mix
  | invSub
  | invShift
  | invMix
  deriving DecidableEq, Repr

/-- What a stage does to the working block. -/
def runStage (rk : Vector Block 15) (b : Block) : Stage → Block
  | .addKey r => addRoundKey b (roundKey rk r)
  | .sub => subBytes b
  | .shift => shiftRows b
  | .mix => mixColumns b
  | .invSub => invSubBytes b
  | .invShift => invShiftRows b
  | .invMix => invMixColumns b

/-- The stages of the forward cipher, in order (rule R199). -/
def forwardStages (nr : Nat) : List Stage :=
  .addKey 0 :: (List.range' 1 (nr - 1)).flatMap (fun r => [.sub, .shift, .mix, .addKey r])
    ++ [.sub, .shift, .addKey nr]

/-- The stages of the inverse cipher, in order (rule R200). -/
def inverseStages (nr : Nat) : List Stage :=
  .addKey nr :: .invShift :: .invSub
    :: (List.range' 1 (nr - 1)).reverse.flatMap (fun r => [.addKey r, .invMix, .invShift, .invSub])
    ++ [.addKey 0]

end Sys2Proof.Machine
end

