-- ==== Sys2Proof/Safety.lean ====
section
/-! DEFINITION. What holds of every state a run reaches (10_state.md rules R25 to R30), the host's duties and the
end of a run (70_reset_and_hazards.md rules R357, R358). -/

namespace Sys2Proof.Machine

/-- The round-key store is what the flags say (10_state.md rule R28, 20_memory.md rule R77): without a valid
schedule NR is 0; with one, NR and the store are those of the KEY words for one of the three key sizes. -/
def ScheduleOk (s : State) : Prop :=
  (s.keyv = false ∧ s.nr = 0#4) ∨
    (s.keyv = true ∧ ∃ klen nk nr, keyParams klen = some (nk, nr) ∧ s.nr = BitVec.ofNat 4 nr ∧
      s.rk = roundKeys s.key nk nr)

/-- The invariant of the machine. -/
structure Inv (s : State) : Prop where
  /-- KEYV, NR and the round-key store agree with KEY. -/
  schedule : ScheduleOk s
  /-- ERR is one of the codes 0 to 5 (60_exceptions.md rule R300). -/
  err_le : s.err.toNat ≤ 5
  /-- OUTLEN is in 0..16 (10_state.md rule R30). -/
  outlen_le : s.outlen.toNat ≤ 16
  /-- DONE is 0 while a command is pending (10_state.md rules R26, R42, R43). -/
  busy_not_done : s.busy = true → s.done = false
  /-- While rst is asserted every engine element is at its reset value (70_reset_and_hazards.md rule R340). -/
  reset_holds : s.rst = true → s = s.resetEngine true

/-- A register a host may not write while BUSY is 1 (70_reset_and_hazards.md rule R351). -/
def protectedReg : Reg → Bool
  | .cmd => true
  | .key _ => true
  | .iv _ => true
  | .din _ => true
  | .ctrl => false
  | .status => false
  | .result => false
  | .dout _ => false
  | .id => false
  | .reserved => false

/-- The host's next step keeps its duties (rule R357's list of them; log entry 16): an aligned 32-bit access, and no
write to a protected register while BUSY is 1. One host an instance is the form of the state: it has one program. -/
def dutyKept (s : State) : Bool :=
  match s.program with
  | [] => true
  | .read off lanes :: _ => accessOk off lanes
  | .write off lanes _ :: _ => accessOk off lanes && !(s.busy && protectedReg (regOfWord (off.toNat / 4)))
  | .wait :: _ => true
  | .waitIrq :: _ => true

/-- `n` steps of the machine. -/
def runFor : Nat → State → Result
  | 0, s => .next s
  | n + 1, s =>
    match step s with
    | .next t => runFor n t
    | .fault r => .fault r
    | .refused r => .refused r

/-- `n` moves of the host, with nothing else between them. -/
def hostMoves : Nat → State → State
  | 0, s => s
  | n + 1, s => hostMoves n (hostMove s)

/-! ### A run and its end (rule R358) -/

/-- A run of a host program from a start state: nothing read yet. -/
def startRun (start : State) (program : List HostStep) : State := { start with program := program, reads := [] }

/-- The run is over (rule R358): the host has executed its last step, and BUSY = 0. DESIGN CHOICE: it does not look at
rst, so a run can be over while rst is asserted, where rule R358 says nothing (log entry 17). -/
def runEnded (s : State) : Bool := s.program.isEmpty && !s.busy

/-- The machine's next step breaks no host duty: a move of the host keeps its duties, and the moves of the engine
and the platform have none. -/
def stepKeepsDuties (s : State) : Bool :=
  match nextMove s with
  | .host => dutyKept s
  | .engine => true
  | .platform _ => true
  | .idle => true

/-- The end state of the run from s, if the run is over within `n` steps (rule R358): the first state at which it is
over. A run whose host breaks a duty on the way has none (which duties: log entry 16). -/
def endState : Nat → State → Option State
  | 0, s => if runEnded s then some s else none
  | n + 1, s =>
    if runEnded s then some s
    else if stepKeepsDuties s then
      match step s with
      | .next t => endState n t
      | .fault _ => none
      | .refused _ => none
    else none

/-- What a run is observed by (rule R358): the engine at the end, and the values the host's reads returned, first
one first. -/
def observation (e : State) : State × List Word :=
  ({ e with program := [], reads := [], turns := [] }, e.reads.reverse)

end Sys2Proof.Machine
end

