-- ==== Sys2Proof/Certificates/Slice0/Obligations.lean ====
section
/-! DEFINITION. The statements for the provers. Each docstring names the rule of spec/ it formalises. Where a
statement rests on a choice of the model, its docstring says so and names the log entry. -/

open Sys2Proof Sys2Proof.Machine

/-! ### Encoding -/

/-- Words the spec spells out (30_encoding.md rules R98 and R102) decode to their commands. -/
def Obligations.SpecWordsDecode : Prop :=
  decode 0x00000000#32 = .command .nop ∧ decode 0x00000001#32 = .command .clear ∧
  decode 0x00000202#32 = .command (.expand .k256) ∧ decode 0x00001443#32 = .command (.enc .ecb true 5) ∧
  decode 0x00004064#32 = .command (.dec .cbc true 16) ∧ decode 0x000B0005#32 = .command (.rkrd 11) ∧
  decode 0x83570006#32 = .command (.gfmul 0x57#8 0x83#8) ∧ decode 0x00ED0009#32 = .command (.isbox 0xED#8) ∧
  decode 0x0000000F#32 = .command .imixc ∧ decode 0x00010010#32 = .command (.ark 1)

/-- Decoding the word of a well-formed command gives the command (30_encoding.md rules R90, R96, R102). -/
def Obligations.DecodeOfEncode : Prop :=
  ∀ i : Instr, i.WellFormed → decode (encode i) = .command i

/-- A decoded command is well-formed, and on the bits it uses the word is the command's own word
(30_encoding.md rules R90 to R97): no used bit is dropped or misread. -/
def Obligations.DecodeReadsUsedBits : Prop :=
  ∀ (p : Word) (i : Instr), decode p = .command i → i.WellFormed ∧ p &&& i.usedMask = encode i

/-- 30_encoding.md rule R97: words that agree on the used fields and the reserved bits are the same command. -/
def Obligations.UnusedFieldsIgnored : Prop :=
  ∀ (p q : Word) (i : Instr), decode p = .command i → q &&& i.usedMask = p &&& i.usedMask →
    decode q = .command i

/-- 30_encoding.md rule R98, for a decoder: a word selects opcode OP exactly when its masked bits are OP. -/
def Obligations.MaskSelectsOpcode : Prop :=
  ∀ (p : Word) (op : Nat), op ≤ 0x10 →
    ((∃ i, decode p = .command i ∧ i.opcode = op) ↔ p &&& 0x0000809F#32 = BitVec.ofNat 32 op)

/-- 60_exceptions.md rule R305: which words are illegal, and that their completion records code 5 and has no other
effect. -/
def Obligations.IllegalWordsRaise : Prop :=
  ∀ s : State,
    ((∃ why, decode s.pend = .illegal why) ↔
      s.pend.getLsbD 7 = true ∨ s.pend.getLsbD 15 = true ∨ 0x11 ≤ (s.pend.extractLsb' 0 5).toNat) ∧
    (s.pend.getLsbD 7 = true ∨ s.pend.getLsbD 15 = true ∨ 0x11 ≤ (s.pend.extractLsb' 0 5).toNat →
      complete s = .next { s with busy := false, done := true, err := 5#3 })

/-! ### The field unit and the ROMs -/

/-- 40_field_sbox.md rule R122: the laws of the field's operations. -/
def Obligations.FieldLaws : Prop :=
  ∀ a b c : Byte,
    a ^^^ a = 0#8 ∧ gmul a b = gmul b a ∧ gmul (gmul a b) c = gmul a (gmul b c) ∧
    gmul a (b ^^^ c) = gmul a b ^^^ gmul a c ∧ gmul a 0x01#8 = a ∧ gmul a 0x00#8 = 0x00#8

/-- 40_field_sbox.md rules R123 and R124: the inverse is the unique one, it is a^254, and invert(0) = 0. -/
def Obligations.InvertIsTheInverse : Prop :=
  (∀ a x : Byte, a ≠ 0#8 → (gmul a x = 0x01#8 ↔ x = invert a)) ∧
  (∀ a : Byte, invert a = gpow a 254) ∧ invert 0x00#8 = 0x00#8

/-- 40_field_sbox.md rules R128 and R132: the ROMs are what the construction gives, and inverse bijections. -/
def Obligations.SboxConstruction : Prop :=
  ∀ b : Byte, sboxRom b = affine (invert b) ∧ invSboxRom b = invert (invaffine b) ∧
    invSboxRom (sboxRom b) = b ∧ sboxRom (invSboxRom b) = b

/-- GFMUL, GFINV, SBOX and ISBOX complete from every state and change RESULT, BUSY, DONE and ERR alone
(40_field_sbox.md rules R140 to R143). -/
def Obligations.ByteCommandsComplete : Prop :=
  ∀ (a b : Byte) (s : State),
    exec (.gfmul a b) s = .next { s with result := gmul a b, busy := false, done := true, err := 0#3 } ∧
    exec (.gfinv a) s = .next { s with result := invert a, busy := false, done := true, err := 0#3 } ∧
    exec (.sbox a) s = .next { s with result := sboxRom a, busy := false, done := true, err := 0#3 } ∧
    exec (.isbox a) s = .next { s with result := invSboxRom a, busy := false, done := true, err := 0#3 }

/-! ### The key schedule -/

/-- 41_key_schedule.md rules R161 and R163: RotWord is a left rotation by 8 bits, and each round constant is xtime
of the one before. -/
def Obligations.RotWordAndRcon : Prop :=
  (∀ t : Word, rotWord t = t.rotateLeft 8) ∧ rcon 1 = 0x01#8 ∧
  ∀ j : Nat, 1 ≤ j → j < 10 → rcon (j + 1) = xtime (rcon j)

/-- 41_key_schedule.md rule R164: the words of the expansion, with rule R165's midpoint. -/
def Obligations.ExpansionRecurrence : Prop :=
  ∀ (key : Vector Word 8) (klen : KeyLen) (nk nr : Nat), keyParams klen = some (nk, nr) →
    (expandKey key nk nr).length = 4 * (nr + 1) ∧
    (∀ (i : Nat) (h : i < 8), i < nk → (expandKey key nk nr)[i]? = some key[i]) ∧
    ∀ i : Nat, nk ≤ i → i < 4 * (nr + 1) →
      ∃ w old t : Word,
        (expandKey key nk nr)[i]? = some w ∧ (expandKey key nk nr)[i - nk]? = some old ∧
        (expandKey key nk nr)[i - 1]? = some t ∧
        w = old ^^^
          (if i % nk = 0 then subWord (rotWord t) ^^^ ((rcon (i / nk)).setWidth 32 <<< 24)
           else if nk = 8 ∧ i % nk = 4 then subWord t else t)

/-- 41_key_schedule.md rules R166 and R170: the store EXPAND writes: RK[r] is words 4r to 4r + 3 for r up to Nr, and
zero above; RK[0] is the first four key words (rule R167). -/
def Obligations.RoundKeyStore : Prop :=
  ∀ (key : Vector Word 8) (klen : KeyLen) (nk nr : Nat), keyParams klen = some (nk, nr) →
    (∀ (r : Nat) (h : r < 15), r ≤ nr → ∃ w0 w1 w2 w3 : Word,
      (expandKey key nk nr)[4 * r]? = some w0 ∧ (expandKey key nk nr)[4 * r + 1]? = some w1 ∧
      (expandKey key nk nr)[4 * r + 2]? = some w2 ∧ (expandKey key nk nr)[4 * r + 3]? = some w3 ∧
      (roundKeys key nk nr)[r] = blockOfWords w0 w1 w2 w3) ∧
    (∀ (r : Nat) (h : r < 15), nr < r → (roundKeys key nk nr)[r] = zeroBlock) ∧
    (roundKeys key nk nr)[0] = blockOfWords key[0] key[1] key[2] key[3]

/-- EXPAND completes from every state with a legal key size and writes RK, KEYV and NR; KLEN = 0b11 raises
InvalidKeyLength and writes nothing else (41_key_schedule.md rule R170). -/
def Obligations.ExpandCompletes : Prop :=
  ∀ s : State,
    exec (.expand .k128) s = .next { s with
      rk := roundKeys s.key 4 10, keyv := true, nr := 10#4, busy := false, done := true, err := 0#3 } ∧
    exec (.expand .k192) s = .next { s with
      rk := roundKeys s.key 6 12, keyv := true, nr := 12#4, busy := false, done := true, err := 0#3 } ∧
    exec (.expand .k256) s = .next { s with
      rk := roundKeys s.key 8 14, keyv := true, nr := 14#4, busy := false, done := true, err := 0#3 } ∧
    exec (.expand .kbad) s = .next { s with busy := false, done := true, err := 1#3 }

/-- EXPAND reads KEY0..KEY(Nk-1) only (41_key_schedule.md rules R160 and R170). -/
def Obligations.HigherKeyWordsNotRead : Prop :=
  ∀ (klen : KeyLen) (nk nr : Nat) (k k' : Vector Word 8), keyParams klen = some (nk, nr) →
    (∀ (i : Nat) (h : i < 8), i < nk → k[i] = k'[i]) → roundKeys k nk nr = roundKeys k' nk nr

/-- RKRD and ARK: with a valid schedule they complete and write DOUT alone, index 15 standing for the zero block;
without one they raise InvalidKeyLength (41_key_schedule.md rule R175, 42_round_pipeline.md rule R216). -/
def Obligations.RoundKeyCommands : Prop :=
  ∀ (s : State) (i : Nat),
    (s.keyv = true → ∀ h : i ≤ 14,
      exec (.rkrd i) s = .next { s with dout := s.rk[i], busy := false, done := true, err := 0#3 } ∧
      exec (.ark i) s = .next { s with
        dout := xorBlock s.din s.rk[i], busy := false, done := true, err := 0#3 }) ∧
    (s.keyv = true →
      exec (.rkrd 15) s = .next { s with dout := zeroBlock, busy := false, done := true, err := 0#3 } ∧
      exec (.ark 15) s = .next { s with dout := s.din, busy := false, done := true, err := 0#3 }) ∧
    (s.keyv = false →
      exec (.rkrd i) s = .next { s with busy := false, done := true, err := 1#3 } ∧
      exec (.ark i) s = .next { s with busy := false, done := true, err := 1#3 })

/-! ### The round pipeline -/

/-- SUBB, ISUBB, SHR, ISHR, MIXC and IMIXC complete from every state and write DOUT alone beside BUSY, DONE and ERR
(42_round_pipeline.md rules R210 to R215). -/
def Obligations.StageCommandsComplete : Prop :=
  ∀ s : State,
    exec .subb s = .next { s with dout := subBytes s.din, busy := false, done := true, err := 0#3 } ∧
    exec .isubb s = .next { s with dout := invSubBytes s.din, busy := false, done := true, err := 0#3 } ∧
    exec .shr s = .next { s with dout := shiftRows s.din, busy := false, done := true, err := 0#3 } ∧
    exec .ishr s = .next { s with dout := invShiftRows s.din, busy := false, done := true, err := 0#3 } ∧
    exec .mixc s = .next { s with dout := mixColumns s.din, busy := false, done := true, err := 0#3 } ∧
    exec .imixc s = .next { s with dout := invMixColumns s.din, busy := false, done := true, err := 0#3 }

/-- 42_round_pipeline.md rules R190 to R193 and R196 in byte indices. -/
def Obligations.ByteTransforms : Prop :=
  ∀ (b key : Block) (r c : Nat) (hr : r < 4) (hc : c < 4),
    (subBytes b)[r + 4 * c] = sboxRom b[r + 4 * c] ∧
    (invSubBytes b)[r + 4 * c] = invSboxRom b[r + 4 * c] ∧
    (shiftRows b)[r + 4 * c] = b[r + 4 * ((c + r) % 4)] ∧
    (invShiftRows b)[r + 4 * c] = b[r + 4 * ((c + 4 - r) % 4)] ∧
    (addRoundKey b key)[r + 4 * c] = b[r + 4 * c] ^^^ key[r + 4 * c]

/-- 42_round_pipeline.md rules R194 and R195: the columns of MixColumns and InvMixColumns. -/
def Obligations.ColumnTransforms : Prop :=
  ∀ (b : Block) (c : Nat) (hc : c < 4),
    let a0 := b[4 * c]
    let a1 := b[1 + 4 * c]
    let a2 := b[2 + 4 * c]
    let a3 := b[3 + 4 * c]
    (mixColumns b)[4 * c] = gmul 0x02#8 a0 ^^^ gmul 0x03#8 a1 ^^^ a2 ^^^ a3 ∧
    (mixColumns b)[1 + 4 * c] = a0 ^^^ gmul 0x02#8 a1 ^^^ gmul 0x03#8 a2 ^^^ a3 ∧
    (mixColumns b)[2 + 4 * c] = a0 ^^^ a1 ^^^ gmul 0x02#8 a2 ^^^ gmul 0x03#8 a3 ∧
    (mixColumns b)[3 + 4 * c] = gmul 0x03#8 a0 ^^^ a1 ^^^ a2 ^^^ gmul 0x02#8 a3 ∧
    (invMixColumns b)[4 * c] =
      gmul 0x0E#8 a0 ^^^ gmul 0x0B#8 a1 ^^^ gmul 0x0D#8 a2 ^^^ gmul 0x09#8 a3 ∧
    (invMixColumns b)[1 + 4 * c] =
      gmul 0x09#8 a0 ^^^ gmul 0x0E#8 a1 ^^^ gmul 0x0B#8 a2 ^^^ gmul 0x0D#8 a3 ∧
    (invMixColumns b)[2 + 4 * c] =
      gmul 0x0D#8 a0 ^^^ gmul 0x09#8 a1 ^^^ gmul 0x0E#8 a2 ^^^ gmul 0x0B#8 a3 ∧
    (invMixColumns b)[3 + 4 * c] =
      gmul 0x0B#8 a0 ^^^ gmul 0x0D#8 a1 ^^^ gmul 0x09#8 a2 ^^^ gmul 0x0E#8 a3

/-- 42_round_pipeline.md rule R197: each transform is undone by its inverse, and the byte substitutions commute with
the row shifts. -/
def Obligations.TransformInverses : Prop :=
  ∀ b key : Block,
    invSubBytes (subBytes b) = b ∧ invShiftRows (shiftRows b) = b ∧ invMixColumns (mixColumns b) = b ∧
    addRoundKey (addRoundKey b key) key = b ∧
    subBytes (shiftRows b) = shiftRows (subBytes b) ∧
    invSubBytes (invShiftRows b) = invShiftRows (invSubBytes b)

/-- 42_round_pipeline.md rule R201: decryption undoes encryption and encryption undoes decryption, for every block
and every round-key store and round count, those of a valid key among them. -/
def Obligations.CipherRoundTrip : Prop :=
  ∀ (b : Block) (rk : Vector Block 15) (nr : Nat),
    invCipher (cipher b rk nr) rk nr = b ∧ cipher (invCipher b rk nr) rk nr = b

/-- 42_round_pipeline.md rule R202: each direction is a fixed linear sequence of 4·Nr stages, with Nr+1 round keys,
Nr substitutions, Nr shifts and Nr-1 column mixes, the keys read in order (in reverse order for decryption). -/
def Obligations.CipherIsItsStages : Prop :=
  ∀ (b : Block) (rk : Vector Block 15) (nr : Nat), 1 ≤ nr →
    cipher b rk nr = (forwardStages nr).foldl (runStage rk) b ∧
    invCipher b rk nr = (inverseStages nr).foldl (runStage rk) b ∧
    (forwardStages nr).length = 4 * nr ∧ (inverseStages nr).length = 4 * nr ∧
    (forwardStages nr).filterMap (fun g => match g with | .addKey r => some r | _ => none)
      = List.range (nr + 1) ∧
    (inverseStages nr).filterMap (fun g => match g with | .addKey r => some r | _ => none)
      = (List.range (nr + 1)).reverse ∧
    (forwardStages nr).count .sub = nr ∧ (forwardStages nr).count .shift = nr ∧
    (forwardStages nr).count .mix = nr - 1 ∧ (inverseStages nr).count .invSub = nr ∧
    (inverseStages nr).count .invShift = nr ∧ (inverseStages nr).count .invMix = nr - 1

/-! ### Block modes and padding -/

/-- ENC completes when a schedule is held, DLEN is legal and, in CBC, the IV is complete: it writes DOUT, OUTLEN
and, in CBC, CV (43_cipher_modes.md rules R234, R235, R240, R242). -/
def Obligations.EncCompletes : Prop :=
  ∀ (s : State) (mode : Mode) (final : Bool) (dlen : Nat),
    s.keyv = true → (final = false → dlen = 16) → (final = true → dlen ≤ 15) →
    (mode = .cbc → s.ivmask = 0b1111#4) →
    let p := if final then pad s.din dlen else s.din
    let x := if mode = .cbc then xorBlock p s.cv else p
    let c := cipher x s.rk s.nr.toNat
    exec (.enc mode final dlen) s = .next { s with
      dout := c, cv := if mode = .cbc then c else s.cv, outlen := 16#5
      busy := false, done := true, err := 0#3 }

/-- DEC completes under the same conditions with DLEN = 16 and, on the final block, a valid pad: it writes DOUT,
OUTLEN and, in CBC, CV (43_cipher_modes.md rules R234, R235, R243, R245, R246). -/
def Obligations.DecCompletes : Prop :=
  ∀ (s : State) (mode : Mode) (final : Bool),
    s.keyv = true → (mode = .cbc → s.ivmask = 0b1111#4) →
    let x := invCipher s.din s.rk s.nr.toNat
    let p := if mode = .cbc then xorBlock x s.cv else x
    (final = true → unpadOk p = true) →
    exec (.dec mode final 16) s = .next { s with
      dout := p, cv := if mode = .cbc then s.din else s.cv
      outlen := if final then BitVec.ofNat 5 (16 - p[15].toNat) else 16#5
      busy := false, done := true, err := 0#3 }

/-- 43_cipher_modes.md rule R232: the padded block, byte by byte, and that DIN's bytes from DLEN on are ignored. -/
def Obligations.PadBytes : Prop :=
  ∀ (b b' : Block) (l : Nat), l ≤ 15 →
    (∀ (k : Nat) (h : k < 16), (pad b l)[k] = if k < l then b[k] else BitVec.ofNat 8 (16 - l)) ∧
    ((∀ (k : Nat) (h : k < 16), k < l → b[k] = b'[k]) → pad b l = pad b' l)

/-- 43_cipher_modes.md rule R233: the pad check holds exactly when the last N bytes all equal N for an N in 1..16,
and a final DEC whose decrypted block violates it ends with InvalidPadding and writes nothing else: DOUT and OUTLEN
are not truncated, they are not written at all. -/
def Obligations.UnpadCheck : Prop :=
  (∀ p : Block, unpadOk p = true ↔
    1 ≤ p[15].toNat ∧ p[15].toNat ≤ 16 ∧ ∀ (k : Nat) (h : k < 16), 16 - p[15].toNat ≤ k → p[k] = p[15]) ∧
  ∀ (s : State) (mode : Mode), s.keyv = true → (mode = .cbc → s.ivmask = 0b1111#4) →
    let x := invCipher s.din s.rk s.nr.toNat
    let p := if mode = .cbc then xorBlock x s.cv else x
    unpadOk p = false →
      exec (.dec mode true 16) s = .next { s with busy := false, done := true, err := 3#3 }

/-- ENC and then DEC of the result, from the same chaining value, gives the block back; on a final block it gives
the padded block and its data length (43_cipher_modes.md rules R230, R235, R246). -/
def Obligations.EncThenDec : Prop :=
  ∀ (s : State) (mode : Mode) (final : Bool) (dlen : Nat),
    s.keyv = true → (final = false → dlen = 16) → (final = true → dlen ≤ 15) →
    (mode = .cbc → s.ivmask = 0b1111#4) →
    ∃ t u : State, exec (.enc mode final dlen) s = .next t ∧
      exec (.dec mode final 16) { t with din := t.dout, cv := s.cv } = .next u ∧ u.err = 0#3 ∧
      u.dout = (if final then pad s.din dlen else s.din) ∧
      u.outlen = BitVec.ofNat 5 dlen

/-- 43_cipher_modes.md rule R246: encrypting a message of any length and decrypting the blocks from the same
chaining value recovers the message, in both modes; the ciphertext has floor(L/16) + 1 blocks (rule R241). The
encryption procedure fills the unused bytes of the last block with 0, the model's choice, log entry 13. -/
def Obligations.MessageRoundTrip : Prop :=
  ∀ (s : State) (mode : Mode) (m : List Byte),
    s.keyv = true → (mode = .cbc → s.ivmask = 0b1111#4) →
    ∃ (t : State) (cs : List Block), encryptMessage mode s m = some (t, cs) ∧
      cs.length = m.length / 16 + 1 ∧ decryptMessage mode { t with cv := s.cv } cs = some m

/-- 43_cipher_modes.md rule R249 (b): in CBC decryption a changed IV changes only the first plaintext block, by the
same difference, and a changed ciphertext block changes exactly its own plaintext block and the next. -/
def Obligations.CbcDecryptionIsLocal : Prop :=
  ∀ (s : State) (cs : List Block) (iv c : Block) (j : Nat) (hj : j < cs.length),
    s.keyv = true → s.ivmask = 0b1111#4 → c ≠ cs[j] →
    ∃ (t t' t'' : State) (ps ps' ps'' : List Block),
      runStream (.dec .cbc false 16) s cs = some (t, ps) ∧
      runStream (.dec .cbc false 16) s (cs.set j c) = some (t', ps') ∧
      runStream (.dec .cbc false 16) { s with cv := iv } cs = some (t'', ps'') ∧
      (∀ i, i < cs.length → (ps[i]? = ps'[i]? ↔ i ≠ j ∧ i ≠ j + 1)) ∧
      ps''[0]? = ps[0]?.map (fun p => xorBlock p (xorBlock s.cv iv)) ∧
      (∀ i, 0 < i → ps[i]? = ps''[i]?)

/-- 43_cipher_modes.md rule R249 (a): in CBC encryption a changed plaintext block changes its own ciphertext block
and every later one, and a changed IV changes every ciphertext block. -/
def Obligations.CbcEncryptionPropagates : Prop :=
  ∀ (s : State) (ps : List Block) (iv p : Block) (j : Nat) (hj : j < ps.length),
    s.keyv = true → s.ivmask = 0b1111#4 → p ≠ ps[j] → iv ≠ s.cv →
    ∃ (t t' t'' : State) (cs cs' cs'' : List Block),
      runStream (.enc .cbc false 16) s ps = some (t, cs) ∧
      runStream (.enc .cbc false 16) s (ps.set j p) = some (t', cs') ∧
      runStream (.enc .cbc false 16) { s with cv := iv } ps = some (t'', cs'') ∧
      (∀ i, i < ps.length → (cs[i]? = cs'[i]? ↔ i < j)) ∧ (∀ i, i < ps.length → cs[i]? ≠ cs''[i]?)

/-- 43_cipher_modes.md rule R248: under one schedule, ECB encryption of equal blocks P gives equal blocks, whatever
else differs between the states and the two commands: P may be DIN itself in one and a padded block in the other. -/
def Obligations.EcbDeterminism : Prop :=
  ∀ (s s' : State) (final final' : Bool) (dlen dlen' : Nat),
    s.keyv = true → s'.keyv = true → (final = false → dlen = 16) → (final = true → dlen ≤ 15) →
    (final' = false → dlen' = 16) → (final' = true → dlen' ≤ 15) →
    s.rk = s'.rk → s.nr = s'.nr → encInput final dlen s.din = encInput final' dlen' s'.din →
    ∃ t t' : State, exec (.enc .ecb final dlen) s = .next t ∧ exec (.enc .ecb final' dlen') s' = .next t' ∧
      t.err = 0#3 ∧ t'.err = 0#3 ∧ t.dout = t'.dout

/-! ### Control, errors and effects -/

/-- NOP changes BUSY, DONE and ERR alone; CLEAR leaves the reset state but for CTRL.IE, DONE, PEND and the world
outside the engine (44_control.md rules R270 and R272). -/
def Obligations.NopAndClearComplete : Prop :=
  ∀ s : State,
    exec .nop s = .next { s with busy := false, done := true, err := 0#3 } ∧
    exec .clear s = .next { State.reset with
      ie := s.ie, done := true, pend := s.pend, rst := s.rst, program := s.program, reads := s.reads
      turns := s.turns }

/-- 60_exceptions.md rules R301 and R302: every completion records the code of the highest-priority condition that
holds, and 0 when none does. -/
def Obligations.ErrorPriority : Prop :=
  ∀ s : State, ∃ t : State, complete s = .next t ∧
    t.err =
      match decode s.pend with
      | .illegal _ => 5#3
      | .command (.expand .kbad) => 1#3
      | .command (.rkrd _) => if s.keyv = false then 1#3 else 0#3
      | .command (.ark _) => if s.keyv = false then 1#3 else 0#3
      | .command (.enc mode final dlen) =>
        if s.keyv = false then 1#3
        else if (final = false ∧ dlen ≠ 16) ∨ (final = true ∧ 15 < dlen) then 2#3
        else if mode = .cbc ∧ s.ivmask ≠ 0b1111#4 then 4#3
        else 0#3
      | .command (.dec mode final dlen) =>
        if s.keyv = false then 1#3
        else if dlen ≠ 16 then 2#3
        else if mode = .cbc ∧ s.ivmask ≠ 0b1111#4 then 4#3
        else if final = true ∧
            unpadOk (if mode = .cbc then xorBlock (invCipher s.din s.rk s.nr.toNat) s.cv
              else invCipher s.din s.rk s.nr.toNat) = false then 3#3
        else 0#3
      | .command _ => 0#3

/-- 60_exceptions.md rule R303: a command that ends with an error changes BUSY, DONE and ERR and nothing else. -/
def Obligations.ErrorsChangeNothingElse : Prop :=
  ∀ (i : Instr) (s : State), ∃ t : State, exec i s = .next t ∧
    (t.err ≠ 0#3 → t = { s with busy := false, done := true, err := t.err })

/-- The frame of every command (44_control.md rule R274): what each one leaves as it was. -/
def Obligations.CommandEffects : Prop :=
  ∀ (i : Instr) (s : State), ∃ t : State, exec i s = .next t ∧
    t.ie = s.ie ∧ t.pend = s.pend ∧ t.rst = s.rst ∧ t.program = s.program ∧ t.reads = s.reads ∧
    t.turns = s.turns ∧
    (i ≠ .clear → t.key = s.key ∧ t.din = s.din ∧ t.ivmask = s.ivmask ∧ t.ovr = s.ovr) ∧
    (i ≠ .clear → (∀ k, i ≠ .expand k) → t.rk = s.rk ∧ t.keyv = s.keyv ∧ t.nr = s.nr) ∧
    (i ≠ .clear → (∀ f d, i ≠ .enc .cbc f d) → (∀ f d, i ≠ .dec .cbc f d) → t.cv = s.cv) ∧
    (i ≠ .clear → (∀ m f d, i ≠ .enc m f d) → (∀ m f d, i ≠ .dec m f d) → t.outlen = s.outlen) ∧
    (i ≠ .clear → (∀ a b, i ≠ .gfmul a b) → (∀ a, i ≠ .gfinv a) → (∀ a, i ≠ .sbox a) →
      (∀ a, i ≠ .isbox a) → t.result = s.result) ∧
    (i = .nop ∨ (∃ k, i = .expand k) ∨ (∃ a b, i = .gfmul a b) ∨ (∃ a, i = .gfinv a) ∨ (∃ a, i = .sbox a) ∨
      (∃ a, i = .isbox a) → t.dout = s.dout)

/-- Every completion ends the command: BUSY 0, DONE 1, and PEND kept (10_state.md rules R25, R26, R38, R43). -/
def Obligations.CompletionEndsCommand : Prop :=
  ∀ s : State, ∃ t : State, complete s = .next t ∧ t.busy = false ∧ t.done = true ∧ t.pend = s.pend ∧
    t.err.toNat ≤ 5

/-! ### Registers and host accesses -/

/-- 10_state.md rule R46: every element after reset. -/
def Obligations.ResetValues : Prop :=
  let s := State.reset
  s.ie = false ∧ s.busy = false ∧ s.done = false ∧ s.ovr = false ∧ s.keyv = false ∧ s.err = 0#3 ∧
  s.outlen = 0#5 ∧ s.nr = 0#4 ∧ s.ivmask = 0b0000#4 ∧
  (∀ (k : Nat) (h : k < 8), s.key[k] = 0#32) ∧
  (∀ (r : Nat) (hr : r < 15) (k : Nat) (h : k < 16), s.rk[r][k] = 0#8) ∧
  (∀ (k : Nat) (h : k < 16), s.cv[k] = 0#8 ∧ s.din[k] = 0#8 ∧ s.dout[k] = 0#8) ∧
  s.result = 0#8 ∧ s.pend = 0#32 ∧ s.statusWord = 0#32 ∧ s.irq = false ∧
  memRead 0x60#8 0b1111#4 s = 0x41455301#32

/-- 10_state.md rule R24: the layout of STATUS as it is read, and the effect of a write to it, busy or not. -/
def Obligations.StatusRegister : Prop :=
  ∀ (s : State) (d : Word), s.rst = false →
    let v := memRead 0x04#8 0b1111#4 s
    v.getLsbD 0 = s.busy ∧ v.getLsbD 1 = s.done ∧ v.getLsbD 2 = s.ovr ∧ v.getLsbD 3 = s.keyv ∧
    (v.getLsbD 4 = true ↔ s.ivmask = 0b1111#4) ∧ v.extractLsb' 5 3 = s.err ∧
    v.extractLsb' 8 5 = s.outlen ∧ v.extractLsb' 13 3 = 0#3 ∧ v.extractLsb' 16 4 = s.nr ∧
    v.extractLsb' 20 12 = 0#12 ∧
    memWrite 0x04#8 0b1111#4 d s = { s with
      done := if d.getLsbD 1 then false else s.done, ovr := if d.getLsbD 2 then false else s.ovr }

/-- 20_memory.md rule R64: what an aligned read returns at each offset. -/
def Obligations.ReadMap : Prop :=
  ∀ (s : State) (off : BitVec 8), s.rst = false →
    memRead 0x00#8 0b1111#4 s = (BitVec.ofBool s.ie).setWidth 32 ∧
    memRead 0x04#8 0b1111#4 s = s.statusWord ∧
    memRead 0x08#8 0b1111#4 s = 0#32 ∧
    memRead 0x0C#8 0b1111#4 s = s.result.setWidth 32 ∧
    (∀ k : Fin 8, memRead (BitVec.ofNat 8 (0x10 + 4 * k.val)) 0b1111#4 s = 0#32) ∧
    (∀ k : Fin 4, memRead (BitVec.ofNat 8 (0x30 + 4 * k.val)) 0b1111#4 s = blockWordAt s.cv k ∧
      memRead (BitVec.ofNat 8 (0x40 + 4 * k.val)) 0b1111#4 s = blockWordAt s.din k ∧
      memRead (BitVec.ofNat 8 (0x50 + 4 * k.val)) 0b1111#4 s = blockWordAt s.dout k) ∧
    memRead 0x60#8 0b1111#4 s = 0x41455301#32 ∧
    (off.toNat % 4 = 0 → 0x64 ≤ off.toNat → memRead off 0b1111#4 s = 0#32)

/-- 20_memory.md rule R65: the effect of an aligned write at each offset, busy or not; the write to CMD of the idle
engine is the accept of 10_state.md rule R42. -/
def Obligations.WriteMap : Prop :=
  ∀ (s : State) (off : BitVec 8) (d : Word), s.rst = false →
    memWrite 0x00#8 0b1111#4 d s = { s with ie := d.getLsbD 0 } ∧
    memWrite 0x04#8 0b1111#4 d s = { s with
      done := if d.getLsbD 1 then false else s.done, ovr := if d.getLsbD 2 then false else s.ovr } ∧
    memWrite 0x08#8 0b1111#4 d s =
      (if s.busy then { s with ovr := true } else { s with pend := d, busy := true, done := false }) ∧
    (∀ k : Fin 8, memWrite (BitVec.ofNat 8 (0x10 + 4 * k.val)) 0b1111#4 d s =
      (if s.busy then { s with ovr := true }
       else { s with key := s.key.set k d, keyv := false, nr := 0#4 })) ∧
    (∀ k : Fin 4, memWrite (BitVec.ofNat 8 (0x30 + 4 * k.val)) 0b1111#4 d s =
      (if s.busy then { s with ovr := true }
       else { s with cv := setBlockWord s.cv k d, ivmask := s.ivmask ||| (1#4 <<< k.val) })) ∧
    (∀ k : Fin 4, memWrite (BitVec.ofNat 8 (0x40 + 4 * k.val)) 0b1111#4 d s =
      (if s.busy then { s with ovr := true } else { s with din := setBlockWord s.din k d })) ∧
    (off.toNat % 4 = 0 → off.toNat = 0x0C ∨ 0x50 ≤ off.toNat → memWrite off 0b1111#4 d s = s)

/-- 20_memory.md rule R66: a misaligned or sub-word access reads 0 and has no effect. -/
def Obligations.MisalignedAccess : Prop :=
  ∀ (s : State) (off : BitVec 8) (lanes : BitVec 4) (d : Word), off.toNat % 4 ≠ 0 ∨ lanes ≠ 0b1111#4 →
    memRead off lanes s = 0#32 ∧ memWrite off lanes d s = s

/-- 20_memory.md rule R60: the byte order of blocks in words, with the rule's own example. -/
def Obligations.ByteOrder : Prop :=
  (∀ (w0 w1 w2 w3 : Word) (j : Nat) (h : j < 4),
    (blockOfWords w0 w1 w2 w3)[j] = w0.extractLsb' (24 - 8 * j) 8 ∧
    (blockOfWords w0 w1 w2 w3)[4 + j] = w1.extractLsb' (24 - 8 * j) 8 ∧
    (blockOfWords w0 w1 w2 w3)[8 + j] = w2.extractLsb' (24 - 8 * j) 8 ∧
    (blockOfWords w0 w1 w2 w3)[12 + j] = w3.extractLsb' (24 - 8 * j) 8) ∧
  (∀ w0 w1 w2 w3 : Word,
    blockWordAt (blockOfWords w0 w1 w2 w3) 0 = w0 ∧ blockWordAt (blockOfWords w0 w1 w2 w3) 1 = w1 ∧
    blockWordAt (blockOfWords w0 w1 w2 w3) 2 = w2 ∧ blockWordAt (blockOfWords w0 w1 w2 w3) 3 = w3) ∧
  (∀ b : Block, blockOfWords (blockWordAt b 0) (blockWordAt b 1) (blockWordAt b 2) (blockWordAt b 3) = b) ∧
  blockWordAt (hexBlock 0x66e94bd4ef8a2c3b884cfa59ca342b2e) 0 = 0x66e94bd4#32 ∧
  blockWordAt (hexBlock 0x66e94bd4ef8a2c3b884cfa59ca342b2e) 1 = 0xef8a2c3b#32 ∧
  blockWordAt (hexBlock 0x66e94bd4ef8a2c3b884cfa59ca342b2e) 2 = 0x884cfa59#32 ∧
  blockWordAt (hexBlock 0x66e94bd4ef8a2c3b884cfa59ca342b2e) 3 = 0xca342b2e#32

/-- A word written to IVk or DINk while the engine is idle is read back there, and the other words of the register
are as before (10_state.md rules R33 and R34). -/
def Obligations.ReadBackWritten : Prop :=
  ∀ (s : State) (d : Word) (k j : Fin 4), s.rst = false → s.busy = false →
    memRead (regOffset (.iv j)) 0b1111#4 (memWrite (regOffset (.iv k)) 0b1111#4 d s) =
      (if j = k then d else memRead (regOffset (.iv j)) 0b1111#4 s) ∧
    memRead (regOffset (.din j)) 0b1111#4 (memWrite (regOffset (.din k)) 0b1111#4 d s) =
      (if j = k then d else memRead (regOffset (.din j)) 0b1111#4 s)

/-- No read tells anything of KEY, the round-key store or PEND (10_state.md rules R31, R32 and R38,
60_exceptions.md rule R321). -/
def Obligations.KeyRegistersUnreadable : Prop :=
  ∀ (s : State) (off : BitVec 8) (lanes : BitVec 4) (key : Vector Word 8) (rk : Vector Block 15) (pend : Word),
    memRead off lanes { s with key := key, rk := rk, pend := pend } = memRead off lanes s

/-- After a write to a KEY register of the idle engine, every command that needs a schedule ends with
InvalidKeyLength until the next EXPAND (10_state.md rule R28, 70_reset_and_hazards.md rule R354). -/
def Obligations.KeyWriteInvalidates : Prop :=
  ∀ (s : State) (k : Fin 8) (d : Word) (mode : Mode) (final : Bool) (dlen i : Nat),
    s.rst = false → s.busy = false →
    let t := memWrite (regOffset (.key k)) 0b1111#4 d s
    t.keyv = false ∧ t.nr = 0#4 ∧ t.rk = s.rk ∧ t.key[k] = d ∧
    exec (.enc mode final dlen) t = .next { t with busy := false, done := true, err := 1#3 } ∧
    exec (.dec mode final dlen) t = .next { t with busy := false, done := true, err := 1#3 } ∧
    exec (.rkrd i) t = .next { t with busy := false, done := true, err := 1#3 } ∧
    exec (.ark i) t = .next { t with busy := false, done := true, err := 1#3 }

/-- 60_exceptions.md rules R310 and R311: irq is IE AND DONE; a completion raises it when IE is 1, and the
acknowledgement, the next accept, the clearing of IE and reset drop it. That irq is 0 already while rst is asserted
(the part before the last) is the model's choice, log entry 7; the last part speaks of the released state. -/
def Obligations.InterruptLevel : Prop :=
  ∀ (s : State) (d : Word),
    (s.irq = true ↔ s.ie = true ∧ s.done = true) ∧
    (∃ t : State, complete s = .next t ∧ t.irq = s.ie) ∧
    (s.rst = false → d.getLsbD 1 = true → (memWrite 0x04#8 0b1111#4 d s).irq = false) ∧
    (s.rst = false → s.busy = false → (memWrite 0x08#8 0b1111#4 d s).irq = false) ∧
    (s.rst = false → d.getLsbD 0 = false → (memWrite 0x00#8 0b1111#4 d s).irq = false) ∧
    (driveReset true s).irq = false ∧
    (driveReset false (driveReset true s)).irq = false

/-! ### Steps, the schedule and reset -/

/-- A step runs the decoded command: when a command is pending and it is the engine's move, the step is the meaning
of what PEND decodes to, with the schedule's entry used up (10_state.md rule R43). Whose move it is where both agents
can move is the schedule's, log entry 1. -/
def Obligations.StepRunsCommand : Prop :=
  ∀ (s : State) (i : Instr), s.busy = true → s.rst = false →
    (s.turns = [] ∨ s.turns.head? = some .engine ∨ (s.turns.head? = some .host ∧ s.program = [])) →
    decode s.pend = .command i → step s = exec i { s with turns := s.turns.tail }

/-- A step of the host is one host transaction (20_memory.md rule R72): when the host has a step left and it is its
move, the step does what the head of the program says, with the schedule's entry used up. A read records rule R64's
value and changes nothing else (rule R68), a write has rule R65's effect, `wait` is one STATUS read that stays while bit
0 of the value is 1 (30_encoding.md rule R103). The wait for irq (rule R74) as a step is the model's choice, log entry
10, and whose move it is is the schedule's, log entry 1. -/
def Obligations.StepRunsHost : Prop :=
  ∀ s : State, s.program ≠ [] →
    (s.turns.head? = some .host ∨
      ((s.turns = [] ∨ s.turns.head? = some .engine) ∧ (s.busy = false ∨ s.rst = true))) →
    let u := { s with turns := s.turns.tail }
    let v := memRead 0x04#8 0b1111#4 s
    step s = .next (hostMove u) ∧
    (∀ off lanes rest, s.program = .read off lanes :: rest →
      step s = .next { u with reads := memRead off lanes s :: s.reads, program := rest }) ∧
    (∀ off lanes d rest, s.program = .write off lanes d :: rest →
      step s = .next { memWrite off lanes d u with program := rest }) ∧
    (∀ rest, s.program = .wait :: rest →
      step s = .next { u with
        reads := v :: s.reads, program := if v.getLsbD 0 = true then s.program else rest }) ∧
    (∀ rest, s.program = .waitIrq :: rest →
      step s = .next { u with program := if s.irq = true then rest else s.program })

/-- The command placed by withFetchWord is the very next thing the machine runs (the model's own way to place a
command, log entry 3). -/
def Obligations.FetchWordRunsNext : Prop :=
  ∀ (s : State) (w : Nat),
    step (s.withFetchWord 32 w) =
      complete { s with pend := BitVec.ofNat 32 w, busy := true, done := false, rst := false }

/-- The engine never stops: every step of the machine answers a next state (20_memory.md rule R61,
60_exceptions.md rule R307). -/
def Obligations.EveryStepAnswers : Prop := ∀ s : State, ∃ t : State, step s = .next t

/-- An engine with no pending command, a host with nothing to do and a platform that leaves rst alone: the state is
kept (60_exceptions.md rule R335). -/
def Obligations.IdleKeepsState : Prop :=
  ∀ s : State, s.program = [] → s.busy = false → (∀ level, s.turns.head? ≠ some (.reset level)) →
    step s = .next { s with turns := s.turns.tail }

/-- 70_reset_and_hazards.md rules R340 and R341: asserting rst abandons the pending command and leaves every element
at its reset value; while it is asserted reads return 0, writes have no effect and no completion happens; releasing it
leaves the reset values. That the values are there already while rst is asserted is the model's choice, log
entry 7. -/
def Obligations.ResetAbandons : Prop :=
  (∀ (s : State) (ts : List Turn), s.turns = .reset true :: ts →
    step s = .next { State.reset with rst := true, program := s.program, reads := s.reads, turns := ts }) ∧
  (∀ (s : State) (off : BitVec 8) (lanes : BitVec 4) (d : Word), s.rst = true →
    memRead off lanes s = 0#32 ∧ memWrite off lanes d s = s ∧ nextMove s ≠ .engine) ∧
  (∀ (s : State) (ts : List Turn), s.rst = true → s.turns = .reset false :: ts →
    step s = .next { State.reset with program := s.program, reads := s.reads, turns := ts })

/-- The invariant of the machine holds at reset (10_state.md rules R25 to R31, R46). -/
def Obligations.InvariantAtReset : Prop := Inv State.reset

/-- Every step keeps the invariant, from every state that has it: the store matches KEY whenever KEYV = 1 and NR is 0
otherwise (10_state.md rule R28, 20_memory.md rule R77), ERR is at most 5 (60_exceptions.md rule R300), OUTLEN at most
16 (10_state.md rule R30), DONE is 0 while a command is pending (rules R26, R42, R43). That reset values hold while
rst is asserted is the model's choice, log entry 7. -/
def Obligations.InvariantKept : Prop :=
  ∀ s t : State, Inv s → step s = .next t → Inv t

/-- 20_memory.md rule R67, 10_state.md rule R44: no host move changes DOUT, RESULT, the round keys, ERR or OUTLEN;
and while a command is pending none changes an operand of it. -/
def Obligations.HostMovesKeepResults : Prop :=
  ∀ s : State,
    (hostMove s).dout = s.dout ∧ (hostMove s).result = s.result ∧ (hostMove s).rk = s.rk ∧
    (hostMove s).err = s.err ∧ (hostMove s).outlen = s.outlen ∧
    (s.busy = true →
      (hostMove s).pend = s.pend ∧ (hostMove s).key = s.key ∧ (hostMove s).cv = s.cv ∧
      (hostMove s).din = s.din ∧ (hostMove s).ivmask = s.ivmask ∧ (hostMove s).keyv = s.keyv ∧
      (hostMove s).nr = s.nr ∧ (hostMove s).busy = true)

/-- Weak fairness (20_memory.md rule R72): unless the platform resets it, a pending command completes after at most
as many steps as the schedule has entries, and one more. That the engine goes first when the schedule is used up is
the model's form of fairness, log entry 1. -/
def Obligations.PendingCommandCompletes : Prop :=
  ∀ s : State, s.busy = true → s.rst = false → (∀ level, Turn.reset level ∉ s.turns) →
    ∃ (n : Nat) (t : State), n ≤ s.turns.length + 1 ∧ runFor n s = .next t ∧ t.busy = false ∧ t.done = true

/-- 20_memory.md rule R72: the model admits every position of the completion among the host's accesses after an
accept: for every number n of host steps there is a schedule under which exactly n come first. The schedule is log
entry 1. -/
def Obligations.EveryPositionAdmitted : Prop :=
  ∀ (s : State) (n : Nat) (rest : List Turn), s.busy = true → s.rst = false → n ≤ s.program.length →
    runFor (n + 1) { s with turns := List.replicate n .host ++ .engine :: rest } =
      complete { hostMoves n s with turns := rest }

/-- 20_memory.md rule R73: the position of the completion changes none of the command's results: after any number of
host moves the command computes the same DOUT, RESULT, CV, schedule, OUTLEN and ERR. -/
def Obligations.ResultsIgnoreSchedule : Prop :=
  ∀ (s : State) (n : Nat), s.busy = true → s.rst = false →
    ∃ t u : State, complete s = .next t ∧ complete (hostMoves n s) = .next u ∧
      t.dout = u.dout ∧ t.result = u.result ∧ t.cv = u.cv ∧ t.rk = u.rk ∧ t.keyv = u.keyv ∧ t.nr = u.nr ∧
      t.key = u.key ∧ t.din = u.din ∧ t.ivmask = u.ivmask ∧ t.outlen = u.outlen ∧ t.err = u.err

/-- 60_exceptions.md rule R332, 20_memory.md rules R70 and R78: instances share no mutable state. A step of instance k
is the step of its own engine, and a bus access reaches the instance whose window holds the address, at the address's
offset, and no other; every other instance and every BASE stay as they were. That an address is 32 bits wide is the
model's choice, log entry 15. -/
def Obligations.InstancesIndependent : Prop :=
  ∀ p : Platform,
    (∀ k : Nat, ∃ q : Platform, platformStep k p = .next q ∧
      (∀ e, p[k]? = some e → ∃ t, step e.engine = .next t ∧ q[k]? = some { e with engine := t }) ∧
      (∀ j, j ≠ k → q[j]? = p[j]?) ∧ q.map (fun e => e.base) = p.map (fun e => e.base)) ∧
    (∀ (addr : Word) (lanes : BitVec 4) (d : Word) (j : Nat) (e : EngineAt), p[j]? = some e →
      (busWrite p addr lanes d)[j]? = some (if instanceOf p addr = some j
        then { e with engine := memWrite (windowOffset addr) lanes d e.engine } else e) ∧
      (instanceOf p addr = some j → busRead p addr lanes = some (memRead (windowOffset addr) lanes e.engine))) ∧
    (∀ (addr : Word) (lanes : BitVec 4) (d : Word),
      (busWrite p addr lanes d).map (fun e => e.base) = p.map (fun e => e.base) ∧
      (instanceOf p addr = none → busRead p addr lanes = none)) ∧
    ∀ (addr : Word) (j : Nat) (e : EngineAt), platformOk p = true → p[j]? = some e →
      (instanceOf p addr = some j ↔ e.base.toNat ≤ addr.toNat ∧ addr.toNat < e.base.toNat + 256)

/-- 70_reset_and_hazards.md rule R358: a run is over where the host has nothing left and BUSY = 0, and there is its end
state; a run that is not over goes on with its next step if that breaks no host duty, so that the end state is the first
state at which the run is over; a run whose next step breaks a host duty has none, and neither has a run that comes to
such a step. The end state is the same however long one looks for it. The last two parts say what a duty is: every
access aligned and 32 bits wide, and no write to CMD, KEY, IV or DIN while BUSY = 1 (rule R357). By rule R351 a run that
ends never dropped a write: OVR is 1 at the end only if it was at the start. Which duties end a run is log entry 16. That a run can be
over while rst is asserted is the model's choice, log entry 17. -/
def Obligations.EndOfRun : Prop :=
  (∀ (s e : State) (n : Nat), endState n s = some e →
    e.program = [] ∧ e.busy = false ∧ (s.ovr = false → e.ovr = false) ∧
    ∀ m, n ≤ m → endState m s = some e) ∧
  (∀ (s : State) (n : Nat), s.program = [] → s.busy = false → endState n s = some s) ∧
  (∀ (s t : State) (n : Nat), s.program ≠ [] ∨ s.busy = true → step s = .next t →
    (nextMove s = .host → dutyKept s = true) → endState (n + 1) s = endState n t) ∧
  (∀ (s : State) (n : Nat), s.program ≠ [] ∨ s.busy = true → nextMove s = .host → dutyKept s = false →
    endState n s = none) ∧
  (∀ (s t : State) (n : Nat), s.program ≠ [] ∨ s.busy = true → step s = .next t → endState n t = none →
    endState (n + 1) s = none) ∧
  (∀ (s : State) (off : BitVec 8) (lanes : BitVec 4) (d : Word) (rest : List HostStep),
    (s.program = .read off lanes :: rest →
      (dutyKept s = true ↔ off.toNat % 4 = 0 ∧ lanes = 0b1111#4)) ∧
    (s.program = .write off lanes d :: rest →
      (dutyKept s = true ↔ off.toNat % 4 = 0 ∧ lanes = 0b1111#4 ∧
        ¬(s.busy = true ∧ (off.toNat = 0x08 ∨ (0x10 ≤ off.toNat ∧ off.toNat < 0x50)))))) ∧
  ∀ (s : State) (rest : List HostStep),
    s.program = .wait :: rest ∨ s.program = .waitIrq :: rest → dutyKept s = true
end

