-- ==== Sys2Proof/Laws/Blocks.lean ====
section
/-! SUPPORT. The bytes of each block operation, so that no later proof unfolds a table of sixteen entries. -/

namespace Sys2Proof.Machine

@[simp] theorem getElem_zeroBlock (k : Nat) (h : k < 16) : zeroBlock[k] = 0#8 := by simp [zeroBlock]

@[simp] theorem getElem_xorBlock (a b : Block) (k : Nat) (h : k < 16) : (xorBlock a b)[k] = a[k] ^^^ b[k] := by
  simp [xorBlock]

theorem getElem_blockOfWords (w0 w1 w2 w3 : Word) (n : Nat) (h : n < 16) :
    (blockOfWords w0 w1 w2 w3)[n] = wordByte (pickWord w0 w1 w2 w3 (n / 4)) (n % 4) := by
  simp [blockOfWords]

theorem getElem_setBlockWord (b : Block) (k : Fin 4) (d : Word) (n : Nat) (h : n < 16) :
    (setBlockWord b k d)[n] = if n / 4 = k.val then wordByte d (n % 4) else b[n] := by
  simp [setBlockWord]

@[simp] theorem getElem_subBytes (b : Block) (k : Nat) (h : k < 16) : (subBytes b)[k] = sboxRom b[k] := by
  simp [subBytes]

@[simp] theorem getElem_invSubBytes (b : Block) (k : Nat) (h : k < 16) :
    (invSubBytes b)[k] = invSboxRom b[k] := by
  simp [invSubBytes]

@[simp] theorem getElem_ofCells (f : Nat → Nat → Byte) (n : Nat) (h : n < 16) :
    (ofCells f)[n] = f (n % 4) (n / 4) := by
  simp [ofCells]

/-- The entry in row r and column c of a block given by its entries. -/
theorem cell_ofCells (f : Nat → Nat → Byte) (r c : Nat) : cell (ofCells f) r c = f (r % 4) (c % 4) := by
  have h : (r % 4 + 4 * (c % 4)) % 4 = r % 4 := by omega
  have h' : (r % 4 + 4 * (c % 4)) / 4 = c % 4 := by omega
  simp [cell, h, h']

/-- A block's byte n is its entry in row n mod 4 and column n / 4. -/
theorem getElem_eq_cell (b : Block) (n : Nat) (h : n < 16) : b[n] = cell b (n % 4) (n / 4) := by
  simp only [cell]
  congr 1
  omega

/-- Rows and columns are counted mod 4. -/
theorem cell_mod (b : Block) (r c : Nat) : cell b (r % 4) (c % 4) = cell b r c := by simp [cell]

/-- Blocks with the same entries are the same block. -/
theorem block_ext_cell {a b : Block} (h : ∀ r c, cell a r c = cell b r c) : a = b := by
  ext k hk
  rw [getElem_eq_cell a k hk, getElem_eq_cell b k hk, h]

@[simp] theorem cell_xorBlock (a b : Block) (r c : Nat) : cell (xorBlock a b) r c = cell a r c ^^^ cell b r c := by
  simp [cell]

@[simp] theorem cell_subBytes (b : Block) (r c : Nat) : cell (subBytes b) r c = sboxRom (cell b r c) := by
  simp [cell]

@[simp] theorem cell_invSubBytes (b : Block) (r c : Nat) :
    cell (invSubBytes b) r c = invSboxRom (cell b r c) := by
  simp [cell]

theorem getElem_pad (b : Block) (l k : Nat) (h : k < 16) :
    (pad b l)[k] = if k < l then b[k] else BitVec.ofNat 8 (16 - l) := by
  simp [pad]

theorem getElem_roundKeys (key : Vector Word 8) (nk nr r : Nat) (h : r < 15) :
    (roundKeys key nk nr)[r] = if r ≤ nr then scheduleBlock (expandKey key nk nr) r else zeroBlock := by
  simp [roundKeys]

end Sys2Proof.Machine
end

