-- ==== Sys2Proof/Laws/State.lean ====
section
/-! SUPPORT. One lemma per field per named update of Machine/Ops.lean: what the update makes of the field. -/

namespace Sys2Proof.Machine

/-! ### State.finish -/

@[simp] theorem State.finish_ie (s : State) (e : ErrCode) : (s.finish e).ie = s.ie := rfl
@[simp] theorem State.finish_busy (s : State) (e : ErrCode) : (s.finish e).busy = false := rfl
@[simp] theorem State.finish_done (s : State) (e : ErrCode) : (s.finish e).done = true := rfl
@[simp] theorem State.finish_ovr (s : State) (e : ErrCode) : (s.finish e).ovr = s.ovr := rfl
@[simp] theorem State.finish_err (s : State) (e : ErrCode) : (s.finish e).err = e.code := rfl
@[simp] theorem State.finish_outlen (s : State) (e : ErrCode) : (s.finish e).outlen = s.outlen := rfl
@[simp] theorem State.finish_keyv (s : State) (e : ErrCode) : (s.finish e).keyv = s.keyv := rfl
@[simp] theorem State.finish_nr (s : State) (e : ErrCode) : (s.finish e).nr = s.nr := rfl
@[simp] theorem State.finish_ivmask (s : State) (e : ErrCode) : (s.finish e).ivmask = s.ivmask := rfl
@[simp] theorem State.finish_key (s : State) (e : ErrCode) : (s.finish e).key = s.key := rfl
@[simp] theorem State.finish_rk (s : State) (e : ErrCode) : (s.finish e).rk = s.rk := rfl
@[simp] theorem State.finish_cv (s : State) (e : ErrCode) : (s.finish e).cv = s.cv := rfl
@[simp] theorem State.finish_din (s : State) (e : ErrCode) : (s.finish e).din = s.din := rfl
@[simp] theorem State.finish_dout (s : State) (e : ErrCode) : (s.finish e).dout = s.dout := rfl
@[simp] theorem State.finish_result (s : State) (e : ErrCode) : (s.finish e).result = s.result := rfl
@[simp] theorem State.finish_pend (s : State) (e : ErrCode) : (s.finish e).pend = s.pend := rfl
@[simp] theorem State.finish_rst (s : State) (e : ErrCode) : (s.finish e).rst = s.rst := rfl
@[simp] theorem State.finish_program (s : State) (e : ErrCode) : (s.finish e).program = s.program := rfl
@[simp] theorem State.finish_reads (s : State) (e : ErrCode) : (s.finish e).reads = s.reads := rfl
@[simp] theorem State.finish_turns (s : State) (e : ErrCode) : (s.finish e).turns = s.turns := rfl

/-! ### State.putDout -/

@[simp] theorem State.putDout_ie (s : State) (b : Block) : (s.putDout b).ie = s.ie := rfl
@[simp] theorem State.putDout_busy (s : State) (b : Block) : (s.putDout b).busy = s.busy := rfl
@[simp] theorem State.putDout_done (s : State) (b : Block) : (s.putDout b).done = s.done := rfl
@[simp] theorem State.putDout_ovr (s : State) (b : Block) : (s.putDout b).ovr = s.ovr := rfl
@[simp] theorem State.putDout_err (s : State) (b : Block) : (s.putDout b).err = s.err := rfl
@[simp] theorem State.putDout_outlen (s : State) (b : Block) : (s.putDout b).outlen = s.outlen := rfl
@[simp] theorem State.putDout_keyv (s : State) (b : Block) : (s.putDout b).keyv = s.keyv := rfl
@[simp] theorem State.putDout_nr (s : State) (b : Block) : (s.putDout b).nr = s.nr := rfl
@[simp] theorem State.putDout_ivmask (s : State) (b : Block) : (s.putDout b).ivmask = s.ivmask := rfl
@[simp] theorem State.putDout_key (s : State) (b : Block) : (s.putDout b).key = s.key := rfl
@[simp] theorem State.putDout_rk (s : State) (b : Block) : (s.putDout b).rk = s.rk := rfl
@[simp] theorem State.putDout_cv (s : State) (b : Block) : (s.putDout b).cv = s.cv := rfl
@[simp] theorem State.putDout_din (s : State) (b : Block) : (s.putDout b).din = s.din := rfl
@[simp] theorem State.putDout_dout (s : State) (b : Block) : (s.putDout b).dout = b := rfl
@[simp] theorem State.putDout_result (s : State) (b : Block) : (s.putDout b).result = s.result := rfl
@[simp] theorem State.putDout_pend (s : State) (b : Block) : (s.putDout b).pend = s.pend := rfl
@[simp] theorem State.putDout_rst (s : State) (b : Block) : (s.putDout b).rst = s.rst := rfl
@[simp] theorem State.putDout_program (s : State) (b : Block) : (s.putDout b).program = s.program := rfl
@[simp] theorem State.putDout_reads (s : State) (b : Block) : (s.putDout b).reads = s.reads := rfl
@[simp] theorem State.putDout_turns (s : State) (b : Block) : (s.putDout b).turns = s.turns := rfl

/-! ### State.putResult -/

@[simp] theorem State.putResult_ie (s : State) (r : Byte) : (s.putResult r).ie = s.ie := rfl
@[simp] theorem State.putResult_busy (s : State) (r : Byte) : (s.putResult r).busy = s.busy := rfl
@[simp] theorem State.putResult_done (s : State) (r : Byte) : (s.putResult r).done = s.done := rfl
@[simp] theorem State.putResult_ovr (s : State) (r : Byte) : (s.putResult r).ovr = s.ovr := rfl
@[simp] theorem State.putResult_err (s : State) (r : Byte) : (s.putResult r).err = s.err := rfl
@[simp] theorem State.putResult_outlen (s : State) (r : Byte) : (s.putResult r).outlen = s.outlen := rfl
@[simp] theorem State.putResult_keyv (s : State) (r : Byte) : (s.putResult r).keyv = s.keyv := rfl
@[simp] theorem State.putResult_nr (s : State) (r : Byte) : (s.putResult r).nr = s.nr := rfl
@[simp] theorem State.putResult_ivmask (s : State) (r : Byte) : (s.putResult r).ivmask = s.ivmask := rfl
@[simp] theorem State.putResult_key (s : State) (r : Byte) : (s.putResult r).key = s.key := rfl
@[simp] theorem State.putResult_rk (s : State) (r : Byte) : (s.putResult r).rk = s.rk := rfl
@[simp] theorem State.putResult_cv (s : State) (r : Byte) : (s.putResult r).cv = s.cv := rfl
@[simp] theorem State.putResult_din (s : State) (r : Byte) : (s.putResult r).din = s.din := rfl
@[simp] theorem State.putResult_dout (s : State) (r : Byte) : (s.putResult r).dout = s.dout := rfl
@[simp] theorem State.putResult_result (s : State) (r : Byte) : (s.putResult r).result = r := rfl
@[simp] theorem State.putResult_pend (s : State) (r : Byte) : (s.putResult r).pend = s.pend := rfl
@[simp] theorem State.putResult_rst (s : State) (r : Byte) : (s.putResult r).rst = s.rst := rfl
@[simp] theorem State.putResult_program (s : State) (r : Byte) : (s.putResult r).program = s.program := rfl
@[simp] theorem State.putResult_reads (s : State) (r : Byte) : (s.putResult r).reads = s.reads := rfl
@[simp] theorem State.putResult_turns (s : State) (r : Byte) : (s.putResult r).turns = s.turns := rfl

/-! ### State.putOutlen -/

@[simp] theorem State.putOutlen_ie (s : State) (n : Nat) : (s.putOutlen n).ie = s.ie := rfl
@[simp] theorem State.putOutlen_busy (s : State) (n : Nat) : (s.putOutlen n).busy = s.busy := rfl
@[simp] theorem State.putOutlen_done (s : State) (n : Nat) : (s.putOutlen n).done = s.done := rfl
@[simp] theorem State.putOutlen_ovr (s : State) (n : Nat) : (s.putOutlen n).ovr = s.ovr := rfl
@[simp] theorem State.putOutlen_err (s : State) (n : Nat) : (s.putOutlen n).err = s.err := rfl
@[simp] theorem State.putOutlen_outlen (s : State) (n : Nat) : (s.putOutlen n).outlen = BitVec.ofNat 5 n := rfl
@[simp] theorem State.putOutlen_keyv (s : State) (n : Nat) : (s.putOutlen n).keyv = s.keyv := rfl
@[simp] theorem State.putOutlen_nr (s : State) (n : Nat) : (s.putOutlen n).nr = s.nr := rfl
@[simp] theorem State.putOutlen_ivmask (s : State) (n : Nat) : (s.putOutlen n).ivmask = s.ivmask := rfl
@[simp] theorem State.putOutlen_key (s : State) (n : Nat) : (s.putOutlen n).key = s.key := rfl
@[simp] theorem State.putOutlen_rk (s : State) (n : Nat) : (s.putOutlen n).rk = s.rk := rfl
@[simp] theorem State.putOutlen_cv (s : State) (n : Nat) : (s.putOutlen n).cv = s.cv := rfl
@[simp] theorem State.putOutlen_din (s : State) (n : Nat) : (s.putOutlen n).din = s.din := rfl
@[simp] theorem State.putOutlen_dout (s : State) (n : Nat) : (s.putOutlen n).dout = s.dout := rfl
@[simp] theorem State.putOutlen_result (s : State) (n : Nat) : (s.putOutlen n).result = s.result := rfl
@[simp] theorem State.putOutlen_pend (s : State) (n : Nat) : (s.putOutlen n).pend = s.pend := rfl
@[simp] theorem State.putOutlen_rst (s : State) (n : Nat) : (s.putOutlen n).rst = s.rst := rfl
@[simp] theorem State.putOutlen_program (s : State) (n : Nat) : (s.putOutlen n).program = s.program := rfl
@[simp] theorem State.putOutlen_reads (s : State) (n : Nat) : (s.putOutlen n).reads = s.reads := rfl
@[simp] theorem State.putOutlen_turns (s : State) (n : Nat) : (s.putOutlen n).turns = s.turns := rfl

/-! ### State.putCv -/

@[simp] theorem State.putCv_ie (s : State) (b : Block) : (s.putCv b).ie = s.ie := rfl
@[simp] theorem State.putCv_busy (s : State) (b : Block) : (s.putCv b).busy = s.busy := rfl
@[simp] theorem State.putCv_done (s : State) (b : Block) : (s.putCv b).done = s.done := rfl
@[simp] theorem State.putCv_ovr (s : State) (b : Block) : (s.putCv b).ovr = s.ovr := rfl
@[simp] theorem State.putCv_err (s : State) (b : Block) : (s.putCv b).err = s.err := rfl
@[simp] theorem State.putCv_outlen (s : State) (b : Block) : (s.putCv b).outlen = s.outlen := rfl
@[simp] theorem State.putCv_keyv (s : State) (b : Block) : (s.putCv b).keyv = s.keyv := rfl
@[simp] theorem State.putCv_nr (s : State) (b : Block) : (s.putCv b).nr = s.nr := rfl
@[simp] theorem State.putCv_ivmask (s : State) (b : Block) : (s.putCv b).ivmask = s.ivmask := rfl
@[simp] theorem State.putCv_key (s : State) (b : Block) : (s.putCv b).key = s.key := rfl
@[simp] theorem State.putCv_rk (s : State) (b : Block) : (s.putCv b).rk = s.rk := rfl
@[simp] theorem State.putCv_cv (s : State) (b : Block) : (s.putCv b).cv = b := rfl
@[simp] theorem State.putCv_din (s : State) (b : Block) : (s.putCv b).din = s.din := rfl
@[simp] theorem State.putCv_dout (s : State) (b : Block) : (s.putCv b).dout = s.dout := rfl
@[simp] theorem State.putCv_result (s : State) (b : Block) : (s.putCv b).result = s.result := rfl
@[simp] theorem State.putCv_pend (s : State) (b : Block) : (s.putCv b).pend = s.pend := rfl
@[simp] theorem State.putCv_rst (s : State) (b : Block) : (s.putCv b).rst = s.rst := rfl
@[simp] theorem State.putCv_program (s : State) (b : Block) : (s.putCv b).program = s.program := rfl
@[simp] theorem State.putCv_reads (s : State) (b : Block) : (s.putCv b).reads = s.reads := rfl
@[simp] theorem State.putCv_turns (s : State) (b : Block) : (s.putCv b).turns = s.turns := rfl

/-! ### State.putSchedule -/

@[simp] theorem State.putSchedule_ie (s : State) (x : Vector Block 15) (n : Nat) : (s.putSchedule x n).ie = s.ie := rfl
@[simp] theorem State.putSchedule_busy (s : State) (x : Vector Block 15) (n : Nat) : (s.putSchedule x n).busy = s.busy := rfl
@[simp] theorem State.putSchedule_done (s : State) (x : Vector Block 15) (n : Nat) : (s.putSchedule x n).done = s.done := rfl
@[simp] theorem State.putSchedule_ovr (s : State) (x : Vector Block 15) (n : Nat) : (s.putSchedule x n).ovr = s.ovr := rfl
@[simp] theorem State.putSchedule_err (s : State) (x : Vector Block 15) (n : Nat) : (s.putSchedule x n).err = s.err := rfl
@[simp] theorem State.putSchedule_outlen (s : State) (x : Vector Block 15) (n : Nat) : (s.putSchedule x n).outlen = s.outlen := rfl
@[simp] theorem State.putSchedule_keyv (s : State) (x : Vector Block 15) (n : Nat) : (s.putSchedule x n).keyv = true := rfl
@[simp] theorem State.putSchedule_nr (s : State) (x : Vector Block 15) (n : Nat) : (s.putSchedule x n).nr = BitVec.ofNat 4 n := rfl
@[simp] theorem State.putSchedule_ivmask (s : State) (x : Vector Block 15) (n : Nat) : (s.putSchedule x n).ivmask = s.ivmask := rfl
@[simp] theorem State.putSchedule_key (s : State) (x : Vector Block 15) (n : Nat) : (s.putSchedule x n).key = s.key := rfl
@[simp] theorem State.putSchedule_rk (s : State) (x : Vector Block 15) (n : Nat) : (s.putSchedule x n).rk = x := rfl
@[simp] theorem State.putSchedule_cv (s : State) (x : Vector Block 15) (n : Nat) : (s.putSchedule x n).cv = s.cv := rfl
@[simp] theorem State.putSchedule_din (s : State) (x : Vector Block 15) (n : Nat) : (s.putSchedule x n).din = s.din := rfl
@[simp] theorem State.putSchedule_dout (s : State) (x : Vector Block 15) (n : Nat) : (s.putSchedule x n).dout = s.dout := rfl
@[simp] theorem State.putSchedule_result (s : State) (x : Vector Block 15) (n : Nat) : (s.putSchedule x n).result = s.result := rfl
@[simp] theorem State.putSchedule_pend (s : State) (x : Vector Block 15) (n : Nat) : (s.putSchedule x n).pend = s.pend := rfl
@[simp] theorem State.putSchedule_rst (s : State) (x : Vector Block 15) (n : Nat) : (s.putSchedule x n).rst = s.rst := rfl
@[simp] theorem State.putSchedule_program (s : State) (x : Vector Block 15) (n : Nat) : (s.putSchedule x n).program = s.program := rfl
@[simp] theorem State.putSchedule_reads (s : State) (x : Vector Block 15) (n : Nat) : (s.putSchedule x n).reads = s.reads := rfl
@[simp] theorem State.putSchedule_turns (s : State) (x : Vector Block 15) (n : Nat) : (s.putSchedule x n).turns = s.turns := rfl

/-! ### State.wipe -/

@[simp] theorem State.wipe_ie (s : State) : (s.wipe).ie = s.ie := rfl
@[simp] theorem State.wipe_busy (s : State) : (s.wipe).busy = s.busy := rfl
@[simp] theorem State.wipe_done (s : State) : (s.wipe).done = s.done := rfl
@[simp] theorem State.wipe_ovr (s : State) : (s.wipe).ovr = false := rfl
@[simp] theorem State.wipe_err (s : State) : (s.wipe).err = s.err := rfl
@[simp] theorem State.wipe_outlen (s : State) : (s.wipe).outlen = 0#5 := rfl
@[simp] theorem State.wipe_keyv (s : State) : (s.wipe).keyv = false := rfl
@[simp] theorem State.wipe_nr (s : State) : (s.wipe).nr = 0#4 := rfl
@[simp] theorem State.wipe_ivmask (s : State) : (s.wipe).ivmask = 0#4 := rfl
@[simp] theorem State.wipe_key (s : State) : (s.wipe).key = Vector.replicate 8 0#32 := rfl
@[simp] theorem State.wipe_rk (s : State) : (s.wipe).rk = Vector.replicate 15 zeroBlock := rfl
@[simp] theorem State.wipe_cv (s : State) : (s.wipe).cv = zeroBlock := rfl
@[simp] theorem State.wipe_din (s : State) : (s.wipe).din = zeroBlock := rfl
@[simp] theorem State.wipe_dout (s : State) : (s.wipe).dout = zeroBlock := rfl
@[simp] theorem State.wipe_result (s : State) : (s.wipe).result = 0#8 := rfl
@[simp] theorem State.wipe_pend (s : State) : (s.wipe).pend = s.pend := rfl
@[simp] theorem State.wipe_rst (s : State) : (s.wipe).rst = s.rst := rfl
@[simp] theorem State.wipe_program (s : State) : (s.wipe).program = s.program := rfl
@[simp] theorem State.wipe_reads (s : State) : (s.wipe).reads = s.reads := rfl
@[simp] theorem State.wipe_turns (s : State) : (s.wipe).turns = s.turns := rfl

/-! ### State.writeCtrl -/

@[simp] theorem State.writeCtrl_ie (s : State) (d : Word) : (s.writeCtrl d).ie = d.getLsbD 0 := rfl
@[simp] theorem State.writeCtrl_busy (s : State) (d : Word) : (s.writeCtrl d).busy = s.busy := rfl
@[simp] theorem State.writeCtrl_done (s : State) (d : Word) : (s.writeCtrl d).done = s.done := rfl
@[simp] theorem State.writeCtrl_ovr (s : State) (d : Word) : (s.writeCtrl d).ovr = s.ovr := rfl
@[simp] theorem State.writeCtrl_err (s : State) (d : Word) : (s.writeCtrl d).err = s.err := rfl
@[simp] theorem State.writeCtrl_outlen (s : State) (d : Word) : (s.writeCtrl d).outlen = s.outlen := rfl
@[simp] theorem State.writeCtrl_keyv (s : State) (d : Word) : (s.writeCtrl d).keyv = s.keyv := rfl
@[simp] theorem State.writeCtrl_nr (s : State) (d : Word) : (s.writeCtrl d).nr = s.nr := rfl
@[simp] theorem State.writeCtrl_ivmask (s : State) (d : Word) : (s.writeCtrl d).ivmask = s.ivmask := rfl
@[simp] theorem State.writeCtrl_key (s : State) (d : Word) : (s.writeCtrl d).key = s.key := rfl
@[simp] theorem State.writeCtrl_rk (s : State) (d : Word) : (s.writeCtrl d).rk = s.rk := rfl
@[simp] theorem State.writeCtrl_cv (s : State) (d : Word) : (s.writeCtrl d).cv = s.cv := rfl
@[simp] theorem State.writeCtrl_din (s : State) (d : Word) : (s.writeCtrl d).din = s.din := rfl
@[simp] theorem State.writeCtrl_dout (s : State) (d : Word) : (s.writeCtrl d).dout = s.dout := rfl
@[simp] theorem State.writeCtrl_result (s : State) (d : Word) : (s.writeCtrl d).result = s.result := rfl
@[simp] theorem State.writeCtrl_pend (s : State) (d : Word) : (s.writeCtrl d).pend = s.pend := rfl
@[simp] theorem State.writeCtrl_rst (s : State) (d : Word) : (s.writeCtrl d).rst = s.rst := rfl
@[simp] theorem State.writeCtrl_program (s : State) (d : Word) : (s.writeCtrl d).program = s.program := rfl
@[simp] theorem State.writeCtrl_reads (s : State) (d : Word) : (s.writeCtrl d).reads = s.reads := rfl
@[simp] theorem State.writeCtrl_turns (s : State) (d : Word) : (s.writeCtrl d).turns = s.turns := rfl

/-! ### State.writeStatus -/

@[simp] theorem State.writeStatus_ie (s : State) (d : Word) : (s.writeStatus d).ie = s.ie := rfl
@[simp] theorem State.writeStatus_busy (s : State) (d : Word) : (s.writeStatus d).busy = s.busy := rfl
@[simp] theorem State.writeStatus_done (s : State) (d : Word) : (s.writeStatus d).done = (s.done && !d.getLsbD 1) := rfl
@[simp] theorem State.writeStatus_ovr (s : State) (d : Word) : (s.writeStatus d).ovr = (s.ovr && !d.getLsbD 2) := rfl
@[simp] theorem State.writeStatus_err (s : State) (d : Word) : (s.writeStatus d).err = s.err := rfl
@[simp] theorem State.writeStatus_outlen (s : State) (d : Word) : (s.writeStatus d).outlen = s.outlen := rfl
@[simp] theorem State.writeStatus_keyv (s : State) (d : Word) : (s.writeStatus d).keyv = s.keyv := rfl
@[simp] theorem State.writeStatus_nr (s : State) (d : Word) : (s.writeStatus d).nr = s.nr := rfl
@[simp] theorem State.writeStatus_ivmask (s : State) (d : Word) : (s.writeStatus d).ivmask = s.ivmask := rfl
@[simp] theorem State.writeStatus_key (s : State) (d : Word) : (s.writeStatus d).key = s.key := rfl
@[simp] theorem State.writeStatus_rk (s : State) (d : Word) : (s.writeStatus d).rk = s.rk := rfl
@[simp] theorem State.writeStatus_cv (s : State) (d : Word) : (s.writeStatus d).cv = s.cv := rfl
@[simp] theorem State.writeStatus_din (s : State) (d : Word) : (s.writeStatus d).din = s.din := rfl
@[simp] theorem State.writeStatus_dout (s : State) (d : Word) : (s.writeStatus d).dout = s.dout := rfl
@[simp] theorem State.writeStatus_result (s : State) (d : Word) : (s.writeStatus d).result = s.result := rfl
@[simp] theorem State.writeStatus_pend (s : State) (d : Word) : (s.writeStatus d).pend = s.pend := rfl
@[simp] theorem State.writeStatus_rst (s : State) (d : Word) : (s.writeStatus d).rst = s.rst := rfl
@[simp] theorem State.writeStatus_program (s : State) (d : Word) : (s.writeStatus d).program = s.program := rfl
@[simp] theorem State.writeStatus_reads (s : State) (d : Word) : (s.writeStatus d).reads = s.reads := rfl
@[simp] theorem State.writeStatus_turns (s : State) (d : Word) : (s.writeStatus d).turns = s.turns := rfl

/-! ### State.accept -/

@[simp] theorem State.accept_ie (s : State) (d : Word) : (s.accept d).ie = s.ie := rfl
@[simp] theorem State.accept_busy (s : State) (d : Word) : (s.accept d).busy = true := rfl
@[simp] theorem State.accept_done (s : State) (d : Word) : (s.accept d).done = false := rfl
@[simp] theorem State.accept_ovr (s : State) (d : Word) : (s.accept d).ovr = s.ovr := rfl
@[simp] theorem State.accept_err (s : State) (d : Word) : (s.accept d).err = s.err := rfl
@[simp] theorem State.accept_outlen (s : State) (d : Word) : (s.accept d).outlen = s.outlen := rfl
@[simp] theorem State.accept_keyv (s : State) (d : Word) : (s.accept d).keyv = s.keyv := rfl
@[simp] theorem State.accept_nr (s : State) (d : Word) : (s.accept d).nr = s.nr := rfl
@[simp] theorem State.accept_ivmask (s : State) (d : Word) : (s.accept d).ivmask = s.ivmask := rfl
@[simp] theorem State.accept_key (s : State) (d : Word) : (s.accept d).key = s.key := rfl
@[simp] theorem State.accept_rk (s : State) (d : Word) : (s.accept d).rk = s.rk := rfl
@[simp] theorem State.accept_cv (s : State) (d : Word) : (s.accept d).cv = s.cv := rfl
@[simp] theorem State.accept_din (s : State) (d : Word) : (s.accept d).din = s.din := rfl
@[simp] theorem State.accept_dout (s : State) (d : Word) : (s.accept d).dout = s.dout := rfl
@[simp] theorem State.accept_result (s : State) (d : Word) : (s.accept d).result = s.result := rfl
@[simp] theorem State.accept_pend (s : State) (d : Word) : (s.accept d).pend = d := rfl
@[simp] theorem State.accept_rst (s : State) (d : Word) : (s.accept d).rst = s.rst := rfl
@[simp] theorem State.accept_program (s : State) (d : Word) : (s.accept d).program = s.program := rfl
@[simp] theorem State.accept_reads (s : State) (d : Word) : (s.accept d).reads = s.reads := rfl
@[simp] theorem State.accept_turns (s : State) (d : Word) : (s.accept d).turns = s.turns := rfl

/-! ### State.writeKey -/

@[simp] theorem State.writeKey_ie (s : State) (k : Fin 8) (d : Word) : (s.writeKey k d).ie = s.ie := rfl
@[simp] theorem State.writeKey_busy (s : State) (k : Fin 8) (d : Word) : (s.writeKey k d).busy = s.busy := rfl
@[simp] theorem State.writeKey_done (s : State) (k : Fin 8) (d : Word) : (s.writeKey k d).done = s.done := rfl
@[simp] theorem State.writeKey_ovr (s : State) (k : Fin 8) (d : Word) : (s.writeKey k d).ovr = s.ovr := rfl
@[simp] theorem State.writeKey_err (s : State) (k : Fin 8) (d : Word) : (s.writeKey k d).err = s.err := rfl
@[simp] theorem State.writeKey_outlen (s : State) (k : Fin 8) (d : Word) : (s.writeKey k d).outlen = s.outlen := rfl
@[simp] theorem State.writeKey_keyv (s : State) (k : Fin 8) (d : Word) : (s.writeKey k d).keyv = false := rfl
@[simp] theorem State.writeKey_nr (s : State) (k : Fin 8) (d : Word) : (s.writeKey k d).nr = 0#4 := rfl
@[simp] theorem State.writeKey_ivmask (s : State) (k : Fin 8) (d : Word) : (s.writeKey k d).ivmask = s.ivmask := rfl
@[simp] theorem State.writeKey_key (s : State) (k : Fin 8) (d : Word) : (s.writeKey k d).key = s.key.set k d := rfl
@[simp] theorem State.writeKey_rk (s : State) (k : Fin 8) (d : Word) : (s.writeKey k d).rk = s.rk := rfl
@[simp] theorem State.writeKey_cv (s : State) (k : Fin 8) (d : Word) : (s.writeKey k d).cv = s.cv := rfl
@[simp] theorem State.writeKey_din (s : State) (k : Fin 8) (d : Word) : (s.writeKey k d).din = s.din := rfl
@[simp] theorem State.writeKey_dout (s : State) (k : Fin 8) (d : Word) : (s.writeKey k d).dout = s.dout := rfl
@[simp] theorem State.writeKey_result (s : State) (k : Fin 8) (d : Word) : (s.writeKey k d).result = s.result := rfl
@[simp] theorem State.writeKey_pend (s : State) (k : Fin 8) (d : Word) : (s.writeKey k d).pend = s.pend := rfl
@[simp] theorem State.writeKey_rst (s : State) (k : Fin 8) (d : Word) : (s.writeKey k d).rst = s.rst := rfl
@[simp] theorem State.writeKey_program (s : State) (k : Fin 8) (d : Word) : (s.writeKey k d).program = s.program := rfl
@[simp] theorem State.writeKey_reads (s : State) (k : Fin 8) (d : Word) : (s.writeKey k d).reads = s.reads := rfl
@[simp] theorem State.writeKey_turns (s : State) (k : Fin 8) (d : Word) : (s.writeKey k d).turns = s.turns := rfl

/-! ### State.writeIv -/

@[simp] theorem State.writeIv_ie (s : State) (k : Fin 4) (d : Word) : (s.writeIv k d).ie = s.ie := rfl
@[simp] theorem State.writeIv_busy (s : State) (k : Fin 4) (d : Word) : (s.writeIv k d).busy = s.busy := rfl
@[simp] theorem State.writeIv_done (s : State) (k : Fin 4) (d : Word) : (s.writeIv k d).done = s.done := rfl
@[simp] theorem State.writeIv_ovr (s : State) (k : Fin 4) (d : Word) : (s.writeIv k d).ovr = s.ovr := rfl
@[simp] theorem State.writeIv_err (s : State) (k : Fin 4) (d : Word) : (s.writeIv k d).err = s.err := rfl
@[simp] theorem State.writeIv_outlen (s : State) (k : Fin 4) (d : Word) : (s.writeIv k d).outlen = s.outlen := rfl
@[simp] theorem State.writeIv_keyv (s : State) (k : Fin 4) (d : Word) : (s.writeIv k d).keyv = s.keyv := rfl
@[simp] theorem State.writeIv_nr (s : State) (k : Fin 4) (d : Word) : (s.writeIv k d).nr = s.nr := rfl
@[simp] theorem State.writeIv_ivmask (s : State) (k : Fin 4) (d : Word) : (s.writeIv k d).ivmask = s.ivmask ||| (1#4 <<< k.val) := rfl
@[simp] theorem State.writeIv_key (s : State) (k : Fin 4) (d : Word) : (s.writeIv k d).key = s.key := rfl
@[simp] theorem State.writeIv_rk (s : State) (k : Fin 4) (d : Word) : (s.writeIv k d).rk = s.rk := rfl
@[simp] theorem State.writeIv_cv (s : State) (k : Fin 4) (d : Word) : (s.writeIv k d).cv = setBlockWord s.cv k d := rfl
@[simp] theorem State.writeIv_din (s : State) (k : Fin 4) (d : Word) : (s.writeIv k d).din = s.din := rfl
@[simp] theorem State.writeIv_dout (s : State) (k : Fin 4) (d : Word) : (s.writeIv k d).dout = s.dout := rfl
@[simp] theorem State.writeIv_result (s : State) (k : Fin 4) (d : Word) : (s.writeIv k d).result = s.result := rfl
@[simp] theorem State.writeIv_pend (s : State) (k : Fin 4) (d : Word) : (s.writeIv k d).pend = s.pend := rfl
@[simp] theorem State.writeIv_rst (s : State) (k : Fin 4) (d : Word) : (s.writeIv k d).rst = s.rst := rfl
@[simp] theorem State.writeIv_program (s : State) (k : Fin 4) (d : Word) : (s.writeIv k d).program = s.program := rfl
@[simp] theorem State.writeIv_reads (s : State) (k : Fin 4) (d : Word) : (s.writeIv k d).reads = s.reads := rfl
@[simp] theorem State.writeIv_turns (s : State) (k : Fin 4) (d : Word) : (s.writeIv k d).turns = s.turns := rfl

/-! ### State.writeDin -/

@[simp] theorem State.writeDin_ie (s : State) (k : Fin 4) (d : Word) : (s.writeDin k d).ie = s.ie := rfl
@[simp] theorem State.writeDin_busy (s : State) (k : Fin 4) (d : Word) : (s.writeDin k d).busy = s.busy := rfl
@[simp] theorem State.writeDin_done (s : State) (k : Fin 4) (d : Word) : (s.writeDin k d).done = s.done := rfl
@[simp] theorem State.writeDin_ovr (s : State) (k : Fin 4) (d : Word) : (s.writeDin k d).ovr = s.ovr := rfl
@[simp] theorem State.writeDin_err (s : State) (k : Fin 4) (d : Word) : (s.writeDin k d).err = s.err := rfl
@[simp] theorem State.writeDin_outlen (s : State) (k : Fin 4) (d : Word) : (s.writeDin k d).outlen = s.outlen := rfl
@[simp] theorem State.writeDin_keyv (s : State) (k : Fin 4) (d : Word) : (s.writeDin k d).keyv = s.keyv := rfl
@[simp] theorem State.writeDin_nr (s : State) (k : Fin 4) (d : Word) : (s.writeDin k d).nr = s.nr := rfl
@[simp] theorem State.writeDin_ivmask (s : State) (k : Fin 4) (d : Word) : (s.writeDin k d).ivmask = s.ivmask := rfl
@[simp] theorem State.writeDin_key (s : State) (k : Fin 4) (d : Word) : (s.writeDin k d).key = s.key := rfl
@[simp] theorem State.writeDin_rk (s : State) (k : Fin 4) (d : Word) : (s.writeDin k d).rk = s.rk := rfl
@[simp] theorem State.writeDin_cv (s : State) (k : Fin 4) (d : Word) : (s.writeDin k d).cv = s.cv := rfl
@[simp] theorem State.writeDin_din (s : State) (k : Fin 4) (d : Word) : (s.writeDin k d).din = setBlockWord s.din k d := rfl
@[simp] theorem State.writeDin_dout (s : State) (k : Fin 4) (d : Word) : (s.writeDin k d).dout = s.dout := rfl
@[simp] theorem State.writeDin_result (s : State) (k : Fin 4) (d : Word) : (s.writeDin k d).result = s.result := rfl
@[simp] theorem State.writeDin_pend (s : State) (k : Fin 4) (d : Word) : (s.writeDin k d).pend = s.pend := rfl
@[simp] theorem State.writeDin_rst (s : State) (k : Fin 4) (d : Word) : (s.writeDin k d).rst = s.rst := rfl
@[simp] theorem State.writeDin_program (s : State) (k : Fin 4) (d : Word) : (s.writeDin k d).program = s.program := rfl
@[simp] theorem State.writeDin_reads (s : State) (k : Fin 4) (d : Word) : (s.writeDin k d).reads = s.reads := rfl
@[simp] theorem State.writeDin_turns (s : State) (k : Fin 4) (d : Word) : (s.writeDin k d).turns = s.turns := rfl

/-! ### State.dropWrite -/

@[simp] theorem State.dropWrite_ie (s : State) : (s.dropWrite).ie = s.ie := rfl
@[simp] theorem State.dropWrite_busy (s : State) : (s.dropWrite).busy = s.busy := rfl
@[simp] theorem State.dropWrite_done (s : State) : (s.dropWrite).done = s.done := rfl
@[simp] theorem State.dropWrite_ovr (s : State) : (s.dropWrite).ovr = true := rfl
@[simp] theorem State.dropWrite_err (s : State) : (s.dropWrite).err = s.err := rfl
@[simp] theorem State.dropWrite_outlen (s : State) : (s.dropWrite).outlen = s.outlen := rfl
@[simp] theorem State.dropWrite_keyv (s : State) : (s.dropWrite).keyv = s.keyv := rfl
@[simp] theorem State.dropWrite_nr (s : State) : (s.dropWrite).nr = s.nr := rfl
@[simp] theorem State.dropWrite_ivmask (s : State) : (s.dropWrite).ivmask = s.ivmask := rfl
@[simp] theorem State.dropWrite_key (s : State) : (s.dropWrite).key = s.key := rfl
@[simp] theorem State.dropWrite_rk (s : State) : (s.dropWrite).rk = s.rk := rfl
@[simp] theorem State.dropWrite_cv (s : State) : (s.dropWrite).cv = s.cv := rfl
@[simp] theorem State.dropWrite_din (s : State) : (s.dropWrite).din = s.din := rfl
@[simp] theorem State.dropWrite_dout (s : State) : (s.dropWrite).dout = s.dout := rfl
@[simp] theorem State.dropWrite_result (s : State) : (s.dropWrite).result = s.result := rfl
@[simp] theorem State.dropWrite_pend (s : State) : (s.dropWrite).pend = s.pend := rfl
@[simp] theorem State.dropWrite_rst (s : State) : (s.dropWrite).rst = s.rst := rfl
@[simp] theorem State.dropWrite_program (s : State) : (s.dropWrite).program = s.program := rfl
@[simp] theorem State.dropWrite_reads (s : State) : (s.dropWrite).reads = s.reads := rfl
@[simp] theorem State.dropWrite_turns (s : State) : (s.dropWrite).turns = s.turns := rfl

/-! ### State.logRead -/

@[simp] theorem State.logRead_ie (s : State) (v : Word) : (s.logRead v).ie = s.ie := rfl
@[simp] theorem State.logRead_busy (s : State) (v : Word) : (s.logRead v).busy = s.busy := rfl
@[simp] theorem State.logRead_done (s : State) (v : Word) : (s.logRead v).done = s.done := rfl
@[simp] theorem State.logRead_ovr (s : State) (v : Word) : (s.logRead v).ovr = s.ovr := rfl
@[simp] theorem State.logRead_err (s : State) (v : Word) : (s.logRead v).err = s.err := rfl
@[simp] theorem State.logRead_outlen (s : State) (v : Word) : (s.logRead v).outlen = s.outlen := rfl
@[simp] theorem State.logRead_keyv (s : State) (v : Word) : (s.logRead v).keyv = s.keyv := rfl
@[simp] theorem State.logRead_nr (s : State) (v : Word) : (s.logRead v).nr = s.nr := rfl
@[simp] theorem State.logRead_ivmask (s : State) (v : Word) : (s.logRead v).ivmask = s.ivmask := rfl
@[simp] theorem State.logRead_key (s : State) (v : Word) : (s.logRead v).key = s.key := rfl
@[simp] theorem State.logRead_rk (s : State) (v : Word) : (s.logRead v).rk = s.rk := rfl
@[simp] theorem State.logRead_cv (s : State) (v : Word) : (s.logRead v).cv = s.cv := rfl
@[simp] theorem State.logRead_din (s : State) (v : Word) : (s.logRead v).din = s.din := rfl
@[simp] theorem State.logRead_dout (s : State) (v : Word) : (s.logRead v).dout = s.dout := rfl
@[simp] theorem State.logRead_result (s : State) (v : Word) : (s.logRead v).result = s.result := rfl
@[simp] theorem State.logRead_pend (s : State) (v : Word) : (s.logRead v).pend = s.pend := rfl
@[simp] theorem State.logRead_rst (s : State) (v : Word) : (s.logRead v).rst = s.rst := rfl
@[simp] theorem State.logRead_program (s : State) (v : Word) : (s.logRead v).program = s.program := rfl
@[simp] theorem State.logRead_reads (s : State) (v : Word) : (s.logRead v).reads = v :: s.reads := rfl
@[simp] theorem State.logRead_turns (s : State) (v : Word) : (s.logRead v).turns = s.turns := rfl

/-! ### State.setProgram -/

@[simp] theorem State.setProgram_ie (s : State) (p : List HostStep) : (s.setProgram p).ie = s.ie := rfl
@[simp] theorem State.setProgram_busy (s : State) (p : List HostStep) : (s.setProgram p).busy = s.busy := rfl
@[simp] theorem State.setProgram_done (s : State) (p : List HostStep) : (s.setProgram p).done = s.done := rfl
@[simp] theorem State.setProgram_ovr (s : State) (p : List HostStep) : (s.setProgram p).ovr = s.ovr := rfl
@[simp] theorem State.setProgram_err (s : State) (p : List HostStep) : (s.setProgram p).err = s.err := rfl
@[simp] theorem State.setProgram_outlen (s : State) (p : List HostStep) : (s.setProgram p).outlen = s.outlen := rfl
@[simp] theorem State.setProgram_keyv (s : State) (p : List HostStep) : (s.setProgram p).keyv = s.keyv := rfl
@[simp] theorem State.setProgram_nr (s : State) (p : List HostStep) : (s.setProgram p).nr = s.nr := rfl
@[simp] theorem State.setProgram_ivmask (s : State) (p : List HostStep) : (s.setProgram p).ivmask = s.ivmask := rfl
@[simp] theorem State.setProgram_key (s : State) (p : List HostStep) : (s.setProgram p).key = s.key := rfl
@[simp] theorem State.setProgram_rk (s : State) (p : List HostStep) : (s.setProgram p).rk = s.rk := rfl
@[simp] theorem State.setProgram_cv (s : State) (p : List HostStep) : (s.setProgram p).cv = s.cv := rfl
@[simp] theorem State.setProgram_din (s : State) (p : List HostStep) : (s.setProgram p).din = s.din := rfl
@[simp] theorem State.setProgram_dout (s : State) (p : List HostStep) : (s.setProgram p).dout = s.dout := rfl
@[simp] theorem State.setProgram_result (s : State) (p : List HostStep) : (s.setProgram p).result = s.result := rfl
@[simp] theorem State.setProgram_pend (s : State) (p : List HostStep) : (s.setProgram p).pend = s.pend := rfl
@[simp] theorem State.setProgram_rst (s : State) (p : List HostStep) : (s.setProgram p).rst = s.rst := rfl
@[simp] theorem State.setProgram_program (s : State) (p : List HostStep) : (s.setProgram p).program = p := rfl
@[simp] theorem State.setProgram_reads (s : State) (p : List HostStep) : (s.setProgram p).reads = s.reads := rfl
@[simp] theorem State.setProgram_turns (s : State) (p : List HostStep) : (s.setProgram p).turns = s.turns := rfl

/-! ### State.takeTurn -/

@[simp] theorem State.takeTurn_ie (s : State) : (s.takeTurn).ie = s.ie := rfl
@[simp] theorem State.takeTurn_busy (s : State) : (s.takeTurn).busy = s.busy := rfl
@[simp] theorem State.takeTurn_done (s : State) : (s.takeTurn).done = s.done := rfl
@[simp] theorem State.takeTurn_ovr (s : State) : (s.takeTurn).ovr = s.ovr := rfl
@[simp] theorem State.takeTurn_err (s : State) : (s.takeTurn).err = s.err := rfl
@[simp] theorem State.takeTurn_outlen (s : State) : (s.takeTurn).outlen = s.outlen := rfl
@[simp] theorem State.takeTurn_keyv (s : State) : (s.takeTurn).keyv = s.keyv := rfl
@[simp] theorem State.takeTurn_nr (s : State) : (s.takeTurn).nr = s.nr := rfl
@[simp] theorem State.takeTurn_ivmask (s : State) : (s.takeTurn).ivmask = s.ivmask := rfl
@[simp] theorem State.takeTurn_key (s : State) : (s.takeTurn).key = s.key := rfl
@[simp] theorem State.takeTurn_rk (s : State) : (s.takeTurn).rk = s.rk := rfl
@[simp] theorem State.takeTurn_cv (s : State) : (s.takeTurn).cv = s.cv := rfl
@[simp] theorem State.takeTurn_din (s : State) : (s.takeTurn).din = s.din := rfl
@[simp] theorem State.takeTurn_dout (s : State) : (s.takeTurn).dout = s.dout := rfl
@[simp] theorem State.takeTurn_result (s : State) : (s.takeTurn).result = s.result := rfl
@[simp] theorem State.takeTurn_pend (s : State) : (s.takeTurn).pend = s.pend := rfl
@[simp] theorem State.takeTurn_rst (s : State) : (s.takeTurn).rst = s.rst := rfl
@[simp] theorem State.takeTurn_program (s : State) : (s.takeTurn).program = s.program := rfl
@[simp] theorem State.takeTurn_reads (s : State) : (s.takeTurn).reads = s.reads := rfl
@[simp] theorem State.takeTurn_turns (s : State) : (s.takeTurn).turns = s.turns.tail := rfl

/-! ### State.resetEngine -/

@[simp] theorem State.resetEngine_ie (s : State) (l : Bool) : (s.resetEngine l).ie = State.reset.ie := rfl
@[simp] theorem State.resetEngine_busy (s : State) (l : Bool) : (s.resetEngine l).busy = State.reset.busy := rfl
@[simp] theorem State.resetEngine_done (s : State) (l : Bool) : (s.resetEngine l).done = State.reset.done := rfl
@[simp] theorem State.resetEngine_ovr (s : State) (l : Bool) : (s.resetEngine l).ovr = State.reset.ovr := rfl
@[simp] theorem State.resetEngine_err (s : State) (l : Bool) : (s.resetEngine l).err = State.reset.err := rfl
@[simp] theorem State.resetEngine_outlen (s : State) (l : Bool) : (s.resetEngine l).outlen = State.reset.outlen := rfl
@[simp] theorem State.resetEngine_keyv (s : State) (l : Bool) : (s.resetEngine l).keyv = State.reset.keyv := rfl
@[simp] theorem State.resetEngine_nr (s : State) (l : Bool) : (s.resetEngine l).nr = State.reset.nr := rfl
@[simp] theorem State.resetEngine_ivmask (s : State) (l : Bool) : (s.resetEngine l).ivmask = State.reset.ivmask := rfl
@[simp] theorem State.resetEngine_key (s : State) (l : Bool) : (s.resetEngine l).key = State.reset.key := rfl
@[simp] theorem State.resetEngine_rk (s : State) (l : Bool) : (s.resetEngine l).rk = State.reset.rk := rfl
@[simp] theorem State.resetEngine_cv (s : State) (l : Bool) : (s.resetEngine l).cv = State.reset.cv := rfl
@[simp] theorem State.resetEngine_din (s : State) (l : Bool) : (s.resetEngine l).din = State.reset.din := rfl
@[simp] theorem State.resetEngine_dout (s : State) (l : Bool) : (s.resetEngine l).dout = State.reset.dout := rfl
@[simp] theorem State.resetEngine_result (s : State) (l : Bool) : (s.resetEngine l).result = State.reset.result := rfl
@[simp] theorem State.resetEngine_pend (s : State) (l : Bool) : (s.resetEngine l).pend = State.reset.pend := rfl
@[simp] theorem State.resetEngine_rst (s : State) (l : Bool) : (s.resetEngine l).rst = l := rfl
@[simp] theorem State.resetEngine_program (s : State) (l : Bool) : (s.resetEngine l).program = s.program := rfl
@[simp] theorem State.resetEngine_reads (s : State) (l : Bool) : (s.resetEngine l).reads = s.reads := rfl
@[simp] theorem State.resetEngine_turns (s : State) (l : Bool) : (s.resetEngine l).turns = s.turns := rfl

/-- A state is the same state when every field is. -/
theorem State.ext_fields {s t : State}
    (hie : s.ie = t.ie) (hbusy : s.busy = t.busy) (hdone : s.done = t.done) (hovr : s.ovr = t.ovr) (herr : s.err = t.err) (houtlen : s.outlen = t.outlen) (hkeyv : s.keyv = t.keyv) (hnr : s.nr = t.nr) (hivmask : s.ivmask = t.ivmask) (hkey : s.key = t.key)
    (hrk : s.rk = t.rk) (hcv : s.cv = t.cv) (hdin : s.din = t.din) (hdout : s.dout = t.dout) (hresult : s.result = t.result) (hpend : s.pend = t.pend) (hrst : s.rst = t.rst) (hprogram : s.program = t.program) (hreads : s.reads = t.reads) (hturns : s.turns = t.turns) : s = t := by
  cases s; cases t; simp_all

end Sys2Proof.Machine
end

