-- ==== Sys2Proof/Laws/Ops.lean ====
section
/-! SUPPORT. What each shared operation can do, said once: the ends of a command, the host's accesses, the moves of
the agents and the step. -/

namespace Sys2Proof.Machine

/-- Taking an exception answers a next state: the completion's writes with the code, nothing else. -/
theorem raise_eq_next {e : ErrCode} {s t : State} : raise e s = .next t ↔ t = s.finish e := by
  constructor
  · intro h; cases h; rfl
  · rintro rfl; rfl

/-- Success answers a next state: the completion's writes with code 0. -/
theorem succeed_eq_next {s t : State} : succeed s = .next t ↔ t = s.finish .none := by
  constructor
  · intro h; cases h; rfl
  · rintro rfl; rfl

/-- The chaining write touches only CV. -/
theorem putChain_eq (mode : Mode) (b : Block) (s : State) :
    putChain mode b s = { s with cv := match mode with | .ecb => s.cv | .cbc => b } := by
  cases mode <;> rfl

/-- What a command's success writes before the completion's own writes. -/
inductive Wrote (s : State) : State → Prop
  /-- NOP. -/
  | nothing : Wrote s s
  /-- CLEAR. -/
  | wiped : Wrote s s.wipe
  /-- EXPAND of a legal key size. -/
  | schedule (klen : KeyLen) (nk nr : Nat) (h : keyParams klen = some (nk, nr)) :
      Wrote s (s.putSchedule (roundKeys s.key nk nr) nr)
  /-- The byte commands. -/
  | result (r : Byte) : Wrote s (s.putResult r)
  /-- RKRD and the single-stage commands. -/
  | block (b : Block) : Wrote s (s.putDout b)
  /-- ENC and DEC. -/
  | cipher (mode : Mode) (out next : Block) (n : Nat) (h : n ≤ 16) :
      Wrote s (putChain mode next ((s.putDout out).putOutlen n))

/-- ENC and DEC leave at most 16 in OUTLEN. -/
theorem decOutlen_le (final : Bool) (p : Block) : decOutlen final p ≤ 16 := by
  unfold decOutlen; split <;> omega

/-- Everything a command can do: it answers a next state, which is an error completion or the completion of one of
the writes above. -/
theorem exec_cases (i : Instr) (s : State) :
    (∃ e, e ≠ ErrCode.none ∧ exec i s = .next (s.finish e)) ∨
      ∃ u, Wrote s u ∧ exec i s = .next (u.finish .none) := by
  have ok : ∀ u, Wrote s u → ∃ v, Wrote s v ∧ succeed u = .next (v.finish .none) := fun u h => ⟨u, h, rfl⟩
  cases i with
  | nop => exact .inr (ok _ .nothing)
  | clear => exact .inr (ok _ .wiped)
  | expand klen =>
    cases klen with
    | k128 => exact .inr (ok _ (.schedule .k128 4 10 rfl))
    | k192 => exact .inr (ok _ (.schedule .k192 6 12 rfl))
    | k256 => exact .inr (ok _ (.schedule .k256 8 14 rfl))
    | kbad => exact .inl ⟨_, by decide, rfl⟩
  | enc mode final dlen =>
    simp only [exec, execEnc]
    split
    · next e h => exact .inl ⟨e, by rintro rfl; simp [cipherError] at h; grind, rfl⟩
    · exact .inr (ok _ (.cipher _ _ _ _ (by omega)))
  | dec mode final dlen =>
    simp only [exec, execDec]
    split
    · next e h => exact .inl ⟨e, by rintro rfl; simp [cipherError] at h; grind, rfl⟩
    · split
      · exact .inl ⟨_, by decide, rfl⟩
      · exact .inr (ok _ (.cipher _ _ _ _ (decOutlen_le _ _)))
  | rkrd k =>
    simp only [exec, execRkrd, scheduleError]
    split
    · next e h => exact .inl ⟨e, by rintro rfl; grind, rfl⟩
    · exact .inr (ok _ (.block _))
  | ark k =>
    simp only [exec, execArk, scheduleError]
    split
    · next e h => exact .inl ⟨e, by rintro rfl; grind, rfl⟩
    · exact .inr (ok _ (.block _))
  | gfmul a b => exact .inr (ok _ (.result _))
  | gfinv a => exact .inr (ok _ (.result _))
  | sbox a => exact .inr (ok _ (.result _))
  | isbox a => exact .inr (ok _ (.result _))
  | subb => exact .inr (ok _ (.block _))
  | isubb => exact .inr (ok _ (.block _))
  | shr => exact .inr (ok _ (.block _))
  | ishr => exact .inr (ok _ (.block _))
  | mixc => exact .inr (ok _ (.block _))
  | imixc => exact .inr (ok _ (.block _))

/-- Everything a completion can do. -/
theorem complete_cases (s : State) :
    (∃ i, decode s.pend = .command i ∧ complete s = exec i s) ∨
      (∃ why, decode s.pend = .illegal why ∧ complete s = .next (s.finish .illegalCommand)) := by
  unfold complete
  cases h : decode s.pend with
  | command i => exact .inl ⟨i, rfl, rfl⟩
  | illegal why => exact .inr ⟨why, rfl, rfl⟩

/-- What a host write can do to the state. -/
inductive HostWrote (s : State) : State → Prop
  /-- A write with no effect. -/
  | nothing : HostWrote s s
  | ctrl (d : Word) (h : s.rst = false) : HostWrote s (s.writeCtrl d)
  | status (d : Word) (h : s.rst = false) : HostWrote s (s.writeStatus d)
  /-- A write dropped while a command is pending. -/
  | dropped (h : s.rst = false) (hb : s.busy = true) : HostWrote s s.dropWrite
  | accepted (d : Word) (h : s.rst = false) (hb : s.busy = false) : HostWrote s (s.accept d)
  | key (k : Fin 8) (d : Word) (h : s.rst = false) (hb : s.busy = false) : HostWrote s (s.writeKey k d)
  | iv (k : Fin 4) (d : Word) (h : s.rst = false) (hb : s.busy = false) : HostWrote s (s.writeIv k d)
  | din (k : Fin 4) (d : Word) (h : s.rst = false) (hb : s.busy = false) : HostWrote s (s.writeDin k d)

/-- Everything a host write can do. -/
theorem memWrite_cases (off : BitVec 8) (lanes : BitVec 4) (d : Word) (s : State) :
    HostWrote s (memWrite off lanes d s) := by
  unfold memWrite
  split
  · exact .nothing
  next h =>
  have h : s.rst = false := by simpa using h
  split
  · cases regOfWord (off.toNat / 4) with
    | ctrl => exact .ctrl d h
    | status => exact .status d h
    | cmd => simp only [regWrite]; split; exacts [.dropped h ‹_›, .accepted d h (Bool.eq_false_of_not_eq_true ‹¬s.busy = true›)]
    | key k => simp only [regWrite]; split; exacts [.dropped h ‹_›, .key k d h (Bool.eq_false_of_not_eq_true ‹¬s.busy = true›)]
    | iv k => simp only [regWrite]; split; exacts [.dropped h ‹_›, .iv k d h (Bool.eq_false_of_not_eq_true ‹¬s.busy = true›)]
    | din k => simp only [regWrite]; split; exacts [.dropped h ‹_›, .din k d h (Bool.eq_false_of_not_eq_true ‹¬s.busy = true›)]
    | result => exact .nothing
    | dout k => exact .nothing
    | id => exact .nothing
    | reserved => exact .nothing
  · exact .nothing

/-- Everything a host move can do: a write's effect on the engine, and then only the host's own record and program
change. -/
theorem hostMove_cases (s : State) :
    ∃ u reads program, HostWrote s u ∧ hostMove s = { u with reads := reads, program := program } := by
  unfold hostMove
  split
  · exact ⟨s, s.reads, s.program, .nothing, rfl⟩
  · next off lanes rest _ => exact ⟨s, _, rest, .nothing, rfl⟩
  · next off lanes d rest _ => exact ⟨_, (memWrite off lanes d s).reads, rest, memWrite_cases off lanes d s, rfl⟩
  · simp only [hostPoll]
    split
    · exact ⟨s, _, s.program, .nothing, rfl⟩
    · exact ⟨s, _, _, .nothing, rfl⟩
  · split
    · next rest _ _ => exact ⟨s, s.reads, rest, .nothing, rfl⟩
    · exact ⟨s, s.reads, s.program, .nothing, rfl⟩

/-! What the host's move makes of the head of the program, one lemma a host step. -/

theorem hostMove_read {s : State} {off : BitVec 8} {lanes : BitVec 4} {rest : List HostStep}
    (h : s.program = .read off lanes :: rest) :
    hostMove s = { s with reads := memRead off lanes s :: s.reads, program := rest } := by
  rw [hostMove, h]; rfl

theorem hostMove_write {s : State} {off : BitVec 8} {lanes : BitVec 4} {d : Word} {rest : List HostStep}
    (h : s.program = .write off lanes d :: rest) :
    hostMove s = { memWrite off lanes d s with program := rest } := by
  rw [hostMove, h]; rfl

theorem hostMove_wait {s : State} {rest : List HostStep} (h : s.program = .wait :: rest) :
    hostMove s = { s with
      reads := memRead 0x04#8 0b1111#4 s :: s.reads
      program := if (memRead 0x04#8 0b1111#4 s).getLsbD 0 = true then s.program else rest } := by
  rw [hostMove, h]
  simp only [hostPoll]
  split
  · rw [← h]; rfl
  · rfl

theorem hostMove_waitIrq {s : State} {rest : List HostStep} (h : s.program = .waitIrq :: rest) :
    hostMove s = { s with program := if s.irq = true then rest else s.program } := by
  rw [hostMove, h]
  simp only []
  split
  · rfl
  · rw [← h]

/-- Everything the platform's move can do. -/
theorem driveReset_cases (level : Bool) (s : State) :
    driveReset level s = s.resetEngine level ∨ (level = false ∧ s.rst = false ∧ driveReset level s = s) := by
  unfold driveReset
  cases level <;> cases h : s.rst <;> simp

/-- Everything a step can do, after it has used up the schedule's entry. -/
theorem step_cases (s : State) :
    (∃ level, step s = .next (driveReset level s.takeTurn)) ∨
      (s.program ≠ [] ∧ step s = .next (hostMove s.takeTurn)) ∨
      (s.busy = true ∧ s.rst = false ∧ step s = complete s.takeTurn) ∨
      step s = .next s.takeTurn := by
  unfold step nextMove completionEnabled
  split
  · exact .inl ⟨_, rfl⟩
  · split
    · exact .inr (.inl ⟨‹_›, rfl⟩)
    · split
      · next h => exact .inr (.inr (.inl ⟨by simp_all, by simp_all, rfl⟩))
      · exact .inr (.inr (.inr rfl))
  · split
    · next h => exact .inr (.inr (.inl ⟨by simp_all, by simp_all, rfl⟩))
    · split
      · exact .inr (.inl ⟨‹_›, rfl⟩)
      · exact .inr (.inr (.inr rfl))

end Sys2Proof.Machine
end

