-- ==== Sys2Proof/Laws/PerInstr.lean ====
section
/-! SUPPORT. Statements made for each command, as syntax: its word carries its own opcode, with the reserved bits 0
(30_encoding.md rule R98). -/

namespace Sys2Proof.Laws.Opcode

/-- The word of the command selects its row of the opcode map: `(word AND 0x0000809F) = OP`, OP in 0x00..0x10. -/
def Statement (i : Instr) : Prop :=
  encode i &&& Config.decodeMask = BitVec.ofNat 32 i.opcode ∧ i.opcode ≤ Config.lastOpcode

/-- The fields above OP are cut off by the mask, whatever they hold. -/
theorem cmdWord_mask (op : BitVec 5) (mode final : BitVec 1) (klen : BitVec 2) (dlen : BitVec 5) (a b : Byte) :
    cmdWord op mode final klen dlen a b &&& Config.decodeMask = op.setWidth 32 := by
  apply BitVec.eq_of_getLsbD_eq
  intro k hk
  interval_cases k <;> simp [cmdWord, Config.decodeMask]

/-- Every opcode is in the map. -/
theorem opcode_le (i : Instr) : i.opcode ≤ Config.lastOpcode := by
  cases i <;> exact Nat.le_of_ble_eq_true rfl

theorem nop : Statement .nop := ⟨cmdWord_mask .., opcode_le _⟩
theorem clear : Statement .clear := ⟨cmdWord_mask .., opcode_le _⟩
theorem expand (klen : KeyLen) : Statement (.expand klen) := ⟨cmdWord_mask .., opcode_le _⟩
theorem enc (mode : Mode) (final : Bool) (dlen : Nat) : Statement (.enc mode final dlen) := ⟨cmdWord_mask .., opcode_le _⟩
theorem dec (mode : Mode) (final : Bool) (dlen : Nat) : Statement (.dec mode final dlen) := ⟨cmdWord_mask .., opcode_le _⟩
theorem rkrd (i : Nat) : Statement (.rkrd i) := ⟨cmdWord_mask .., opcode_le _⟩
theorem gfmul (a b : Byte) : Statement (.gfmul a b) := ⟨cmdWord_mask .., opcode_le _⟩
theorem gfinv (a : Byte) : Statement (.gfinv a) := ⟨cmdWord_mask .., opcode_le _⟩
theorem sbox (a : Byte) : Statement (.sbox a) := ⟨cmdWord_mask .., opcode_le _⟩
theorem isbox (a : Byte) : Statement (.isbox a) := ⟨cmdWord_mask .., opcode_le _⟩
theorem subb : Statement .subb := ⟨cmdWord_mask .., opcode_le _⟩
theorem isubb : Statement .isubb := ⟨cmdWord_mask .., opcode_le _⟩
theorem shr : Statement .shr := ⟨cmdWord_mask .., opcode_le _⟩
theorem ishr : Statement .ishr := ⟨cmdWord_mask .., opcode_le _⟩
theorem mixc : Statement .mixc := ⟨cmdWord_mask .., opcode_le _⟩
theorem imixc : Statement .imixc := ⟨cmdWord_mask .., opcode_le _⟩
theorem ark (i : Nat) : Statement (.ark i) := ⟨cmdWord_mask .., opcode_le _⟩

end Sys2Proof.Laws.Opcode
end

