-- ==== Sys2Proof/Laws/Run.lean ====
section
/-! SUPPORT. The equations of a run's end (70_reset_and_hazards.md rule R358), what a host that keeps its duties cannot
do, and the addresses an instance covers. -/

namespace Sys2Proof.Machine

theorem runEnded_iff (s : State) : runEnded s = true ↔ s.program = [] ∧ s.busy = false := by simp [runEnded]

/-- A run that is over ends where it is. -/
theorem endState_of_ended {s : State} (h : runEnded s = true) (n : Nat) : endState n s = some s := by
  cases n <;> simp [endState, h]

/-- A run that is not over goes on with its next step. -/
theorem endState_succ {s t : State} (h : runEnded s = false) (hd : stepKeepsDuties s = true) (hs : step s = .next t)
    (n : Nat) : endState (n + 1) s = endState n t := by
  simp [endState, h, hd, hs]

/-- A run that is not over and whose next step breaks a duty has no end state. -/
theorem endState_of_broken {s : State} (h : runEnded s = false) (hd : stepKeepsDuties s = false) (n : Nat) :
    endState n s = none := by
  cases n <;> simp [endState, h, hd]

/-- The only steps that can break a duty are the host's. -/
theorem stepKeepsDuties_iff (s : State) : stepKeepsDuties s = true ↔ (nextMove s = .host → dutyKept s = true) := by
  unfold stepKeepsDuties
  split <;> simp_all

/-- The offsets of the registers a host may not write while BUSY = 1 (rule R351). -/
theorem protectedReg_regOfWord {n : Nat} (h : n % 4 = 0) :
    protectedReg (regOfWord (n / 4)) = true ↔ n = 0x08 ∨ (0x10 ≤ n ∧ n < 0x50) := by
  unfold regOfWord
  split_ifs <;> simp only [protectedReg] <;> simp <;> omega

/-- A write that the host's duties allow is not dropped: it does not set OVR (rule R351). -/
theorem regWrite_ovr_of_duty {r : Reg} {d : Word} {s : State} (hd : (s.busy && protectedReg r) = false)
    (h : (regWrite r d s).ovr = true) : s.ovr = true := by
  cases hb : s.busy <;> cases r <;>
    simp_all [regWrite, protectedReg, State.writeCtrl, State.writeStatus, State.accept, State.writeKey,
      State.writeIv, State.writeDin]

/-- A host step that keeps its duties does not set OVR (rule R351). -/
theorem hostMove_ovr_of_duty {s : State} (hd : dutyKept s = true) (h : (hostMove s).ovr = true) : s.ovr = true := by
  unfold hostMove at h
  split at h
  · exact h
  · exact h
  · next off lanes d rest hp =>
    simp only [dutyKept, hp, Bool.and_eq_true, Bool.not_eq_true'] at hd
    simp only [State.setProgram, memWrite] at h
    split at h
    · exact h
    · rw [if_pos hd.1] at h
      exact regWrite_ovr_of_duty hd.2 h
  · simp only [hostPoll] at h
    split at h <;> exact h
  · split at h <;> exact h

/-- What a well-placed platform is, in terms of its BASE addresses. -/
theorem platformOk_iff (p : Platform) :
    platformOk p = true ↔
      1 ≤ (p.map fun e => e.base).length ∧ (∀ b ∈ p.map fun e => e.base, b.setWidth 8 = 0#8) ∧
        (p.map fun e => e.base).Nodup := by
  simp only [platformOk, Bool.and_eq_true, decide_eq_true_iff, List.all_eq_true, beq_iff_eq, List.length_map,
    List.forall_mem_map, and_assoc]
  rfl

/-- Whether a platform is well placed is a matter of its BASE addresses alone, so what keeps them keeps it. -/
theorem platformOk_congr {p q : Platform} (h : q.map (fun e => e.base) = p.map (fun e => e.base)) :
    platformOk q = platformOk p := by
  rw [Bool.eq_iff_iff, platformOk_iff, platformOk_iff, h]

/-- An instance placed at a multiple of 256 covers the 256 addresses from its BASE on (20_memory.md rule R70). -/
theorem covers_iff {e : EngineAt} (hb : e.base.setWidth 8 = 0#8) (addr : Word) :
    covers e addr = true ↔ e.base.toNat ≤ addr.toNat ∧ addr.toNat < e.base.toNat + 256 := by
  have h0 : e.base.toNat % 256 = 0 := by simpa using congrArg BitVec.toNat hb
  have ha := addr.isLt
  have hl := e.base.isLt
  simp only [covers, beq_iff_eq, ← BitVec.toNat_inj, BitVec.extractLsb'_toNat, Nat.shiftRight_eq_div_pow]
  omega

end Sys2Proof.Machine
end

