-- ==== Sys2Proof/Tests/Slice0.lean ====
section
/-! SUPPORT. Tests: the words of every command from 30_encoding.md rule R102 and 95_test_vectors.md, one step of each
command against 95_test_vectors.md, and the witnesses that meet the hypotheses of the statements. Expected values are
the spec's; the vector of each is named. -/

namespace Sys2Proof.Machine

/-- The state a result answers meets a check. -/
def answers (r : Result) (f : State → Bool) : Bool :=
  match r with
  | .next t => f t
  | .fault _ => false
  | .refused _ => false

/-- After KX of 95_test_vectors.md L2: the AES-128 key 2b7e1516… loaded and expanded. -/
def keyed : State :=
  { State.reset with
    key := #v[0x2b7e1516#32, 0x28aed2a6#32, 0xabf71588#32, 0x09cf4f3c#32, 0#32, 0#32, 0#32, 0#32]
    rk := roundKeys #v[0x2b7e1516#32, 0x28aed2a6#32, 0xabf71588#32, 0x09cf4f3c#32, 0#32, 0#32, 0#32, 0#32] 4 10
    keyv := true, nr := 10#4 }

/-- As `keyed`, with a complete IV of zeros. -/
def keyedIv : State := { keyed with ivmask := 0b1111#4 }

/-- The all-zero key expanded, as in L1-1, with an IV of zeros as in L1-2. -/
def zeroKeyed : State :=
  { State.reset with rk := roundKeys State.reset.key 4 10, keyv := true, nr := 10#4, ivmask := 0b1111#4 }

/-- A word is pending in the reset engine and it is the engine's move. -/
def pending (w : Nat) : State := State.reset.withFetchWord 32 w

/-! ### Well-formedness: an ill-formed command for each check -/

theorem test_wf_enc_dlen : (Instr.enc .ecb true 32).wf = false := by decide
theorem test_wf_dec_dlen : (Instr.dec .cbc false 32).wf = false := by decide
theorem test_wf_rkrd_index : (Instr.rkrd 16).wf = false := by decide
theorem test_wf_ark_index : (Instr.ark 16).wf = false := by decide
theorem test_wf_accepts : (Instr.enc .ecb true 31).wf = true ∧ (Instr.ark 15).wf = true := by decide

/-! ### Decoding: a word of every command, written out from rule R90's fields -/

/-- B = 0xFF, A = 0xFF and every unused field set, RSV15 = 0, RSV7 = 0, OP = 0 (L2-ERR-22). -/
theorem test_decode_nop : decode 0b11111111111111110111111101100000#32 = .command .nop := by decide
theorem test_decode_clear : decode 0b00000000000000000000000000000001#32 = .command .clear := by decide
/-- KLEN [9:8] = 0b01, OP = 0x02. -/
theorem test_decode_expand : decode 0b00000000000000000000000100000010#32 = .command (.expand .k192) := by decide
theorem test_decode_expand_kbad : decode 0x00000302#32 = .command (.expand .kbad) := by decide
/-- DLEN [14:10] = 5, FINAL = 1, MODE = 1, OP = 0x03 (L3-4: 0x00001463). -/
theorem test_decode_enc : decode 0b00000000000000000001010001100011#32 = .command (.enc .cbc true 5) := by decide
/-- DLEN = 15, OP = 0x04 (rule R102: 0x00003C04). -/
theorem test_decode_dec : decode 0b00000000000000000011110000000100#32 = .command (.dec .ecb false 15) := by decide
/-- A = 0x21: A[7:4] is ignored (L2-KS-4f). -/
theorem test_decode_rkrd : decode 0b00000000001000010000000000000101#32 = .command (.rkrd 1) := by decide
/-- B = 0x83, A = 0x57, OP = 0x06 (rule R140). -/
theorem test_decode_gfmul :
    decode 0b10000011010101110000000000000110#32 = .command (.gfmul 0x57#8 0x83#8) := by decide
theorem test_decode_gfinv : decode 0b00000000010100110000000000000111#32 = .command (.gfinv 0x53#8) := by decide
/-- B = 0x12 is ignored (L2-SB-17). -/
theorem test_decode_sbox : decode 0b00010010010100110000000000001000#32 = .command (.sbox 0x53#8) := by decide
theorem test_decode_isbox : decode 0b00000000111011010000000000001001#32 = .command (.isbox 0xED#8) := by decide
theorem test_decode_subb : decode 0b00000000000000000000000000001010#32 = .command .subb := by decide
theorem test_decode_isubb : decode 0b00000000000000000000000000001011#32 = .command .isubb := by decide
theorem test_decode_shr : decode 0b00000000000000000000000000001100#32 = .command .shr := by decide
theorem test_decode_ishr : decode 0b00000000000000000000000000001101#32 = .command .ishr := by decide
theorem test_decode_mixc : decode 0b00000000000000000000000000001110#32 = .command .mixc := by decide
theorem test_decode_imixc : decode 0b00000000000000000000000000001111#32 = .command .imixc := by decide
theorem test_decode_ark : decode 0b00000000000011110000000000010000#32 = .command (.ark 15) := by decide
/-- L2-ERR-15, L2-ERR-16: the ends of the reserved opcodes. -/
theorem test_decode_reserved :
    decode 0x00000011#32 = .illegal .reservedOpcode ∧ decode 0x0000001F#32 = .illegal .reservedOpcode := by decide
/-- L2-ERR-17, L2-ERR-18. -/
theorem test_decode_rsv :
    decode 0x00004083#32 = .illegal .rsv7Set ∧ decode 0x0000C003#32 = .illegal .rsv15Set := by decide
/-- Rule R102's own words. -/
theorem test_encode_words :
    encode (.enc .cbc false 16) = 0x00004023#32 ∧ encode (.dec .cbc true 16) = 0x00004064#32 ∧
    encode (.expand .k256) = 0x00000202#32 ∧ encode (.gfmul 0x57#8 0x83#8) = 0x83570006#32 ∧
    encode (.ark 11) = 0x000B0010#32 := by decide

/-! ### One step of each command -/

/-- L2-CTL-1: NOP clears a stale ERR. -/
theorem test_nop : answers (step { pending 0 with err := 3#3 }) (fun t => t.err == 0#3 && t.done && !t.busy) = true := by
  decide
/-- Rule R272: CLEAR keeps CTRL.IE and clears KEYV. -/
theorem test_clear : answers (exec .clear { keyedIv with ie := true, ovr := true })
    (fun t => t.ie && !t.ovr && !t.keyv && t.nr == 0#4 && t.ivmask == 0#4 && t.key[0] == 0#32) = true := by
  decide +kernel
/-- L2-KS-1: RK[10] of the AES-128 key. -/
theorem test_expand : answers (exec (.expand .k128) { keyed with keyv := false, rk := State.reset.rk })
    (fun t => t.rk[10] == hexBlock 0xd014f9a8c9ee2589e13f0cc8b6630ca6 && t.rk[11] == zeroBlock && t.nr == 10#4) = true := by
  decide +kernel
/-- L2-KS-3: the AES-256 midpoint word w[12] = a8b09c1a. -/
theorem test_expand_midpoint :
    (expandKey #v[0x603deb10#32, 0x15ca71be#32, 0x2b73aef0#32, 0x857d7781#32, 0x1f352c07#32, 0x3b6108d7#32,
      0x2d9810a3#32, 0x0914dff4#32] 8 14)[12]? = some 0xa8b09c1a#32 := by
  decide +kernel
/-- L1-1: the source's vector. -/
theorem test_enc : answers (exec (.enc .ecb false 16) zeroKeyed)
    (fun t => t.dout == hexBlock 0x66e94bd4ef8a2c3b884cfa59ca342b2e && t.cv == zeroBlock && t.outlen == 16#5) = true := by
  decide +kernel
/-- L1-2: the empty message under CBC, whose ciphertext goes to CV too. -/
theorem test_enc_cbc_final : answers (exec (.enc .cbc true 0) zeroKeyed)
    (fun t => t.dout == hexBlock 0x0143db63ee66b0cdff9f69917680151e && t.cv == t.dout) = true := by
  decide +kernel
/-- L1-2: and back, with OUTLEN 0. -/
theorem test_dec_cbc_final :
    answers (exec (.dec .cbc true 16) { zeroKeyed with din := hexBlock 0x0143db63ee66b0cdff9f69917680151e })
      (fun t => t.dout == hexBlock 0x10101010101010101010101010101010 && t.outlen == 0#5 && t.cv == t.din) = true := by
  decide +kernel
/-- L2-ERR-14: bad padding leaves DOUT and OUTLEN. -/
theorem test_dec_bad_padding :
    answers (exec (.dec .ecb true 16) { keyed with dout := hexBlock 7, outlen := 9#5 })
      (fun t => t.err == 3#3 && t.dout == hexBlock 7 && t.outlen == 9#5) = true := by
  decide +kernel
/-- L2-KS-1 and L2-KS-4e. -/
theorem test_rkrd :
    answers (exec (.rkrd 1) keyed) (fun t => t.dout == hexBlock 0xa0fafe1788542cb123a339392a6c7605) = true ∧
    answers (exec (.rkrd 15) { keyed with dout := hexBlock 7 }) (fun t => t.dout == zeroBlock) = true := by
  decide +kernel
/-- L2-KS-4c: no schedule. -/
theorem test_rkrd_no_schedule : answers (step (pending 0x00000005)) (fun t => t.statusWord == 0x00000022#32) = true := by
  decide
/-- L2-GF-1. -/
theorem test_gfmul : answers (step (pending 0x83570006)) (fun t => t.result == 0xC1#8) = true := by decide
/-- L2-GF-17 and L2-GF-13. -/
theorem test_gfinv : answers (step (pending 0x00530007)) (fun t => t.result == 0xCA#8) = true := by decide +kernel
theorem test_gfinv_zero : answers (step (pending 0x00000007)) (fun t => t.result == 0x00#8) = true := by decide +kernel
/-- L2-SB-4. -/
theorem test_sbox : answers (step (pending 0x00530008)) (fun t => t.result == 0xED#8) = true := by decide
/-- L2-SB-14. -/
theorem test_isbox : answers (step (pending 0x00520009)) (fun t => t.result == 0x48#8) = true := by decide
/-- L2-XF-1. -/
theorem test_subb : answers (exec .subb { State.reset with din := hexBlock 0x193de3bea0f4e22b9ac68d2ae9f84808 })
    (fun t => t.dout == hexBlock 0xd42711aee0bf98f1b8b45de51e415230) = true := by decide +kernel
/-- L2-XF-12. -/
theorem test_isubb : answers (exec .isubb { State.reset with din := hexBlock 0x000102030405060708090a0b0c0d0e0f })
    (fun t => t.dout == hexBlock 0x52096ad53036a538bf40a39e81f3d7fb) = true := by decide +kernel
/-- L2-XF-9. -/
theorem test_shr : answers (exec .shr { State.reset with din := hexBlock 0x000102030405060708090a0b0c0d0e0f })
    (fun t => t.dout == hexBlock 0x00050a0f04090e03080d02070c01060b) = true := by decide +kernel
/-- L2-XF-10. -/
theorem test_ishr : answers (exec .ishr { State.reset with din := hexBlock 0x000102030405060708090a0b0c0d0e0f })
    (fun t => t.dout == hexBlock 0x000d0a0704010e0b0805020f0c090603) = true := by decide +kernel
/-- L2-XF-3. -/
theorem test_mixc : answers (exec .mixc { State.reset with din := hexBlock 0xd4bf5d30e0b452aeb84111f11e2798e5 })
    (fun t => t.dout == hexBlock 0x046681e5e0cb199a48f8d37a2806264c) = true := by decide +kernel
/-- L2-XF-6. -/
theorem test_imixc : answers (exec .imixc { State.reset with din := hexBlock 0x046681e5e0cb199a48f8d37a2806264c })
    (fun t => t.dout == hexBlock 0xd4bf5d30e0b452aeb84111f11e2798e5) = true := by decide +kernel
/-- L2-XF-4. -/
theorem test_ark : answers (exec (.ark 1) { keyed with din := hexBlock 0x046681e5e0cb199a48f8d37a2806264c })
    (fun t => t.dout == hexBlock 0xa49c7ff2689f352b6b5bea43026a5049) = true := by decide +kernel
/-- L2-XF-18: index 15 leaves DIN as it is. -/
theorem test_ark_above : answers (exec (.ark 15) { keyed with din := hexBlock 7 }) (fun t => t.dout == hexBlock 7) = true := by
  decide +kernel

/-! ### Errors, accesses and steps -/

/-- L2-ERR-5 to L2-ERR-8 and L2-ERR-11: DLEN at 15, 16 and 17, and BlockSizeMismatch before IVLengthMismatch. -/
theorem test_enc_length :
    answers (exec (.enc .ecb false 15) keyed) (fun t => t.err == 2#3) = true ∧
    answers (exec (.enc .ecb false 17) keyed) (fun t => t.err == 2#3) = true ∧
    answers (exec (.enc .ecb true 16) keyed) (fun t => t.err == 2#3) = true ∧
    answers (exec (.enc .cbc false 15) keyed) (fun t => t.err == 2#3) = true ∧
    answers (exec (.enc .cbc false 16) keyed) (fun t => t.err == 4#3) = true := by
  decide +kernel
/-- L2-ERR-2, L2-ERR-9, L2-ERR-13. -/
theorem test_dec_errors :
    answers (exec (.dec .cbc false 16) State.reset) (fun t => t.err == 1#3) = true ∧
    answers (exec (.dec .ecb false 0) keyed) (fun t => t.err == 2#3) = true ∧
    answers (exec (.dec .cbc true 16) { keyed with ivmask := 0b1011#4 }) (fun t => t.err == 4#3) = true := by
  decide +kernel
/-- L2-ERR-20: IllegalCommand wins. -/
theorem test_illegal : answers (step (pending 0x00000391)) (fun t => t.statusWord == 0x000000A2#32) = true := by decide
/-- L2-BUSY step 2: a dropped write sets OVR and leaves DIN. -/
theorem test_busy_write :
    (memWrite 0x40#8 0b1111#4 0xdeadbeef#32 (pending 0)).ovr = true ∧
    memRead 0x40#8 0b1111#4 (memWrite 0x40#8 0b1111#4 0xdeadbeef#32 (pending 0)) = 0#32 := by decide
/-- L2-CTL-9: IV words read back, IVV = 1 only after the fourth. -/
theorem test_iv_words :
    memRead 0x38#8 0b1111#4 (memWrite 0x38#8 0b1111#4 0x08090A0B#32 State.reset) = 0x08090A0B#32 ∧
    (memWrite 0x3C#8 0b1111#4 0#32 { State.reset with ivmask := 0b0111#4 }).statusWord = 0x00000010#32 := by decide
/-- L2-CTL-6: STATUS bits are write-one-to-clear. -/
theorem test_status_w1c :
    (memWrite 0x04#8 0b1111#4 0xFFFFFFF9#32 { State.reset with done := true }).statusWord = 2#32 ∧
    (memWrite 0x04#8 0b1111#4 0x00000002#32 { State.reset with done := true }).statusWord = 0#32 := by decide
/-- L2-CTL-7: KEY, CMD and reserved offsets read 0; ID reads its constant. -/
theorem test_read_constants :
    memRead 0x10#8 0b1111#4 keyed = 0#32 ∧ memRead 0x08#8 0b1111#4 keyed = 0#32 ∧
    memRead 0x64#8 0b1111#4 keyed = 0#32 ∧ memRead 0xFC#8 0b1111#4 keyed = 0#32 ∧
    memRead 0x60#8 0b1111#4 keyed = 0x41455301#32 := by decide +kernel
/-- L3-6: with the host's move first the DIN write is dropped, with the engine's first it is not. -/
theorem test_schedules :
    answers (step { pending 0 with turns := [.host], program := [wr (.din 0) 0xae2d8a57#32] })
      (fun t => t.ovr && t.busy) = true ∧
    answers (step { pending 0 with turns := [.engine], program := [wr (.din 0) 0xae2d8a57#32] })
      (fun t => !t.ovr && !t.busy && t.program.length == 1) = true := by decide
/-- Rule R358 on L3-6: a DIN write while BUSY = 1 breaks a duty and the run has no end state; with the completion first
the run ends, and `nop; wait` ends with the one STATUS value the host read. -/
theorem test_end_state :
    endState 3 { pending 0 with turns := [.host], program := [wr (.din 0) 0xae2d8a57#32] } = none ∧
    ((endState 3 { pending 0 with turns := [.engine], program := [wr (.din 0) 0xae2d8a57#32] }).any
      fun e => !e.ovr && e.din[0] == 0xae#8) = true ∧
    ((endState 3 (startRun State.reset (run .nop))).any fun e => (observation e).2 == [2#32]) = true := by
  decide +kernel
/-- Rule R103: the polling loop stays while BUSY = 1 and ends when it is 0. -/
theorem test_wait :
    answers (step { pending 0 with turns := [.host], program := [.wait] })
      (fun t => t.program.length == 1 && t.reads == [1#32]) = true ∧
    answers (step { State.reset with program := [.wait] }) (fun t => t.program.isEmpty && t.reads == [0#32]) = true := by
  decide
/-- Rule R341: reset abandons a pending command; rule R340: nothing has effect while it is asserted. -/
theorem test_reset :
    answers (step { pending 0x83570006 with turns := [.reset true] })
      (fun t => t.rst && !t.busy && t.pend == 0#32 && !completionEnabled t) = true ∧
    memWrite 0x00#8 0b1111#4 1#32 { State.reset with rst := true } = { State.reset with rst := true } := by decide
/-- Rule R104: an illegal word. -/
theorem test_disassemble : disassemble 0x00000011#32 = "cmd 0x00000011" := by decide
/-- Rule R103: the writes of `loadkey`. -/
theorem test_loadkey : loadkey [1#32, 2#32, 3#32, 4#32] = [wr (.key 0) 1#32, wr (.key 1) 2#32, wr (.key 2) 3#32, wr (.key 3) 4#32] := by
  decide
/-- Rule R9: ENGINES ≥ 1; rules R70 and R332: each BASE a multiple of 256, and its own. -/
theorem test_platform_ok :
    platformOk [] = false ∧ platformOk [⟨0x1000#32, State.reset⟩] = true ∧
    platformOk [⟨0x1080#32, State.reset⟩] = false ∧
    platformOk [⟨0x1000#32, State.reset⟩, ⟨0x1000#32, State.reset⟩] = false := by decide
/-- Rules R70 and R332: an address reaches the instance of its window. -/
theorem test_platform :
    instanceOf [⟨0x1000#32, State.reset⟩, ⟨0x1100#32, State.reset⟩] 0x11FC#32 = some 1 ∧
    instanceOf [⟨0x1000#32, State.reset⟩, ⟨0x1100#32, State.reset⟩] 0x1200#32 = none ∧
    busRead [⟨0x1000#32, State.reset⟩] 0x1060#32 0b1111#4 = some 0x41455301#32 := by decide

/-! ### Witnesses of the statements' hypotheses -/

theorem test_hyp_DecodeOfEncode : (Instr.enc .cbc true 31).WellFormed ∧ (Instr.rkrd 15).WellFormed := by decide
theorem test_hyp_DecodeReadsUsedBits : decode 0xFFF50005#32 = .command (.rkrd 5) := by decide
theorem test_hyp_UnusedFieldsIgnored :
    decode 0x00FF0000#32 = .command .nop ∧
      0xFF007F60#32 &&& Instr.nop.usedMask = 0x00FF0000#32 &&& Instr.nop.usedMask := by decide
theorem test_hyp_MaskSelectsOpcode :
    (0 : Nat) ≤ 0x10 ∧ 0xFFFF7F70#32 &&& 0x0000809F#32 = BitVec.ofNat 32 0x10 ∧
      0xFFFF7F60#32 &&& 0x0000809F#32 = BitVec.ofNat 32 0 := by decide
theorem test_hyp_IllegalWordsRaise :
    (pending 0x00000080).pend.getLsbD 7 = true ∧ (pending 0x00008000).pend.getLsbD 15 = true ∧
      0x11 ≤ ((pending 0x00000011).pend.extractLsb' 0 5).toNat := by decide
theorem test_hyp_InvertIsTheInverse : (0x53#8 : Byte) ≠ 0#8 ∧ gmul 0x53#8 0xCA#8 = 0x01#8 := by decide
theorem test_hyp_RotWordAndRcon : 1 ≤ 9 ∧ 9 < 10 ∧ rcon 10 = xtime (rcon 9) := by decide
theorem test_hyp_ExpansionRecurrence : keyParams .k256 = some (8, 14) ∧ 8 ≤ 59 ∧ 59 < 4 * (14 + 1) := by decide
theorem test_hyp_RoundKeyStore : keyParams .k128 = some (4, 10) ∧ 10 < 15 ∧ 10 ≤ 10 ∧ 11 < 15 ∧ 10 < 11 := by decide
theorem test_hyp_HigherKeyWordsNotRead :
    keyParams .k128 = some (4, 10) ∧
      ∀ (i : Nat) (h : i < 8), i < 4 → keyed.key[i] = (keyed.key.set 4 7#32)[i] :=
  ⟨rfl, fun i _ h4 => by rw [Vector.getElem_set_ne (h := by omega)]⟩
theorem test_hyp_RoundKeyCommands : keyed.keyv = true ∧ 14 ≤ 14 ∧ State.reset.keyv = false := by decide
theorem test_hyp_ByteTransforms : (3 : Nat) < 4 ∧ (0 : Nat) < 4 := by decide
theorem test_hyp_ColumnTransforms : (3 : Nat) < 4 := by decide
theorem test_hyp_CipherIsItsStages : (1 : Nat) ≤ 10 ∧ (1 : Nat) ≤ 1 := by decide
/-- CBC, final, at the longest data length. -/
theorem test_hyp_EncCompletes :
    keyedIv.keyv = true ∧ (true = false → 15 = 16) ∧ (true = true → 15 ≤ 15) ∧
      (Mode.cbc = .cbc → keyedIv.ivmask = 0b1111#4) := by decide
/-- ECB, not final. -/
theorem test_hyp_EncThenDec :
    keyed.keyv = true ∧ (false = false → 16 = 16) ∧ (false = true → 16 ≤ 15) ∧
      (Mode.ecb = .cbc → keyed.ivmask = 0b1111#4) := by decide
theorem test_hyp_MessageRoundTrip : keyedIv.keyv = true ∧ (Mode.cbc = .cbc → keyedIv.ivmask = 0b1111#4) := by decide
/-- DEC of the zero block of L2-PAD-6's ciphertext: N = 1, the shortest pad. -/
theorem test_hyp_DecCompletes :
    keyed.keyv = true ∧ (Mode.ecb = .cbc → keyed.ivmask = 0b1111#4) ∧
      (true = true → unpadOk (hexBlock 0x00000000000000000000000000000001) = true) := by decide +kernel
/-- L2-PAD-6: that block is what the ciphertext decrypts to. -/
theorem test_hyp_DecCompletes_block :
    invCipher (hexBlock 0x57127d4034b1bebfaef466b9c7726fc6) keyed.rk 10 = hexBlock 1 := by decide +kernel
/-- L2-ERR-14: the zero block under KX decrypts to a block with bad padding. -/
theorem test_hyp_UnpadCheck :
    keyedIv.keyv = true ∧ (Mode.cbc = .cbc → keyedIv.ivmask = 0b1111#4) ∧
      unpadOk (xorBlock (invCipher keyedIv.din keyedIv.rk keyedIv.nr.toNat) keyedIv.cv) = false ∧
      unpadOk (hexBlock 0x10101010101010101010101010101010) = true := by decide +kernel
theorem test_hyp_PadBytes :
    (15 : Nat) ≤ 15 ∧ ∀ (k : Nat) (h : k < 16), k < 15 → (hexBlock 7)[k] = (hexBlock 9)[k] := by decide +kernel
theorem test_hyp_CbcDecryptionIsLocal :
    (0 : Nat) < [zeroBlock].length ∧ keyedIv.keyv = true ∧ keyedIv.ivmask = 0b1111#4 ∧ hexBlock 1 ≠ [zeroBlock][0] := by
  decide +kernel
theorem test_hyp_CbcEncryptionPropagates :
    (0 : Nat) < [zeroBlock].length ∧ keyedIv.keyv = true ∧ keyedIv.ivmask = 0b1111#4 ∧
      hexBlock 1 ≠ [zeroBlock][0] ∧ hexBlock 1 ≠ keyedIv.cv := by
  decide +kernel
/-- Sixteen bytes 0x10 as a whole block, and the padded empty block (L1-2), are the same P. -/
theorem test_hyp_EcbDeterminism :
    keyed.keyv = true ∧ keyedIv.keyv = true ∧ (false = false → 16 = 16) ∧ (false = true → 16 ≤ 15) ∧
      (true = false → 0 = 16) ∧ (true = true → 0 ≤ 15) ∧ keyed.rk = keyedIv.rk ∧ keyed.nr = keyedIv.nr ∧
      encInput false 16 ({ keyed with din := hexBlock 0x10101010101010101010101010101010 } : State).din =
        encInput true 0 ({ keyedIv with din := hexBlock 2 } : State).din :=
  ⟨rfl, rfl, by decide, by decide, by decide, by decide, rfl, rfl, by decide +kernel⟩
theorem test_hyp_ErrorsChangeNothingElse : answers (exec (.rkrd 0) State.reset) (fun t => t.err != 0#3) = true := by
  decide
theorem test_hyp_CommandEffects :
    Instr.subb ≠ .clear ∧ (∀ k, Instr.subb ≠ .expand k) ∧ (∀ f d, Instr.enc .ecb f d ≠ .enc .cbc f d) ∧
      (∀ f d, Instr.enc .ecb f d ≠ .dec .cbc f d) := by
  refine ⟨by decide, ?_, ?_, ?_⟩ <;> intros <;> simp
theorem test_hyp_StatusRegister : ({ State.reset with ovr := true } : State).rst = false := by decide
theorem test_hyp_ReadBackWritten : keyed.rst = false ∧ keyed.busy = false := by decide
theorem test_hyp_KeyWriteInvalidates : keyed.rst = false ∧ keyed.busy = false ∧ keyed.keyv = true := by decide
theorem test_hyp_HostMovesKeepResults :
    ({ pending 0 with program := [wr (.key 0) 1#32] } : State).busy = true := by decide
theorem test_hyp_ResultsIgnoreSchedule : (pending 0).busy = true ∧ (pending 0).rst = false := by decide
/-- ReadMap's and WriteMap's last clauses at both ends of their ranges. -/
theorem test_hyp_ReadMap_WriteMap :
    State.reset.rst = false ∧
    (0x64#8).toNat % 4 = 0 ∧ 0x64 ≤ (0x64#8).toNat ∧ (0xFC#8).toNat % 4 = 0 ∧ 0x64 ≤ (0xFC#8).toNat ∧
      (0x0C#8).toNat % 4 = 0 ∧ (0x0C#8).toNat = 0x0C ∧ 0x50 ≤ (0x50#8).toNat := by decide
theorem test_hyp_MisalignedAccess : (0x41#8).toNat % 4 ≠ 0 ∧ (0b0111#4 : BitVec 4) ≠ 0b1111#4 := by decide
theorem test_hyp_InterruptLevel :
    keyed.rst = false ∧ keyed.busy = false ∧ (0x00000002#32).getLsbD 1 = true ∧ (0xFFFFFFFE#32).getLsbD 0 = false := by decide
theorem test_hyp_StepRunsCommand :
    (pending 1).busy = true ∧ (pending 1).rst = false ∧ (pending 1).turns.head? = some .engine ∧
      decode (pending 1).pend = .command .clear := by decide
theorem test_hyp_StepRunsHost :
    ({ State.reset with program := [.wait] } : State).program ≠ [] ∧
      ({ pending 0 with program := [.wait], turns := [.host] } : State).turns.head? = some .host ∧
      ({ State.reset with program := [.wait] } : State).turns = [] := by decide
/-- Its clauses: a read of ID and a write of CTRL, on the idle engine, each with one step after it. -/
theorem test_hyp_StepRunsHost_clauses :
    ({ State.reset with program := [rd .id, .wait] } : State).program = .read 0x60#8 0b1111#4 :: [.wait] ∧
      ({ State.reset with program := [wr .ctrl 1#32, .wait] } : State).program =
        .write 0x00#8 0b1111#4 1#32 :: [.wait] ∧
      ({ State.reset with program := [.wait, .waitIrq] } : State).program = .wait :: [.waitIrq] ∧
      ({ State.reset with program := [.waitIrq, .wait] } : State).program = .waitIrq :: [.wait] := by decide
theorem test_hyp_IdleKeepsState :
    State.reset.program = [] ∧ State.reset.busy = false ∧ ∀ level, State.reset.turns.head? ≠ some (.reset level) := by
  decide
theorem test_hyp_ResetAbandons :
    ({ pending 0 with turns := [.reset true] } : State).turns = .reset true :: [] ∧
      ({ State.reset with rst := true, turns := [.reset false] } : State).rst = true := by decide
/-- A pending NOP meets the invariant, and its step answers a next state. -/
theorem test_hyp_InvariantKept : Inv (pending 0) ∧ ∃ t, step (pending 0) = .next t :=
  ⟨{ schedule := .inl (by decide), err_le := by decide, outlen_le := by decide
     busy_not_done := by decide, reset_holds := by decide }, _, rfl⟩
theorem test_hyp_PendingCommandCompletes :
    ({ pending 0 with turns := [.host, .engine] } : State).busy = true ∧
      ∀ level, Turn.reset level ∉ ({ pending 0 with turns := [.host, .engine] } : State).turns := by decide
theorem test_hyp_EveryPositionAdmitted :
    (pending 0).busy = true ∧ (pending 0).rst = false ∧
      2 ≤ ({ pending 0 with program := [.wait, rd .id] } : State).program.length := by decide
/-- Two adjacent windows, at the addresses where they meet. -/
theorem test_hyp_InstancesIndependent :
    let p : Platform := [⟨0x1000#32, State.reset⟩, ⟨0x1100#32, State.reset⟩]
    platformOk p = true ∧ p[0]? = some ⟨0x1000#32, State.reset⟩ ∧ p[1]? = some ⟨0x1100#32, State.reset⟩ ∧
      (1 : Nat) ≠ 0 ∧ instanceOf p 0x10FF#32 = some 0 ∧ instanceOf p 0x1100#32 = some 1 ∧
      instanceOf p 0x0FFF#32 = none := by decide
/-- A run that ends, one at a step that breaks a duty, and one that comes to such a step. -/
theorem test_hyp_EndOfRun :
    endState 2 { pending 0 with program := [rd .id] } ≠ none ∧ (pending 0).ovr = false ∧
      runEnded { pending 0 with turns := [.host], program := [wr (.din 0) 1#32] } = false ∧
      nextMove { pending 0 with turns := [.host], program := [wr (.din 0) 1#32] } = .host ∧
      dutyKept { pending 0 with turns := [.host], program := [wr (.din 0) 1#32] } = false ∧
      answers (step { State.reset with turns := [.host, .host], program := [wr .cmd 0#32, wr (.din 0) 1#32] })
        (fun t => decide (endState 3 t = none)) = true := by decide +kernel
/-- A run that is over, one that goes on, and the offsets where the duties' ranges begin and end. -/
theorem test_hyp_EndOfRun_clauses :
    (keyed.program = [] ∧ keyed.busy = false) ∧ (pending 0).busy = true ∧ nextMove (pending 0) ≠ .host ∧
      dutyKept { pending 0 with program := [.write 0x10#8 0b1111#4 0#32] } = false ∧
      dutyKept { pending 0 with program := [.write 0x4C#8 0b1111#4 0#32] } = false ∧
      dutyKept { pending 0 with program := [.write 0x0C#8 0b1111#4 0#32] } = true ∧
      dutyKept { pending 0 with program := [.write 0x50#8 0b1111#4 0#32] } = true ∧
      dutyKept { State.reset with program := [.read 0x41#8 0b1111#4] } = false := by decide +kernel

end Sys2Proof.Machine
end

section
/-! PROOFS. The statements about the engine's state (10_state.md): the laws they need first, then each statement from
them. -/

namespace Sys2Proof.Machine

/-! ### The host's accesses, by register -/

/-- The offset of a register leads back to it (20_memory.md rule R62). -/
@[simp] theorem regOfWord_regOffset (r : Reg) : regOfWord ((regOffset r).toNat / 4) = r := by
  cases r with
  | key k | iv k | din k | dout k => revert k; decide
  | ctrl | status | cmd | result | id | reserved => decide

@[simp] theorem accessOk_regOffset (r : Reg) : accessOk (regOffset r) 0b1111#4 = true := by
  cases r with
  | key k | iv k | din k | dout k => revert k; decide
  | ctrl | status | cmd | result | id | reserved => decide

theorem memRead_regOffset {s : State} (h : s.rst = false) (r : Reg) :
    memRead (regOffset r) 0b1111#4 s = regRead r s := by simp [memRead, h]

theorem memWrite_regOffset {s : State} (h : s.rst = false) (r : Reg) (d : Word) :
    memWrite (regOffset r) 0b1111#4 d s = regWrite r d s := by simp [memWrite, h]

theorem regWrite_cmd_idle {s : State} (h : s.busy = false) (d : Word) : regWrite .cmd d s = s.accept d := by
  simp [regWrite, h]

theorem regWrite_key_idle {s : State} (h : s.busy = false) (k : Fin 8) (d : Word) :
    regWrite (.key k) d s = s.writeKey k d := by simp [regWrite, h]

theorem regWrite_iv_idle {s : State} (h : s.busy = false) (k : Fin 4) (d : Word) :
    regWrite (.iv k) d s = s.writeIv k d := by simp [regWrite, h]

theorem regWrite_din_idle {s : State} (h : s.busy = false) (k : Fin 4) (d : Word) :
    regWrite (.din k) d s = s.writeDin k d := by simp [regWrite, h]

/-- No register shows KEY, RK or PEND. -/
theorem regRead_secrets (r : Reg) (s : State) (key : Vector Word 8) (rk : Vector Block 15) (pend : Word) :
    regRead r { s with key := key, rk := rk, pend := pend } = regRead r s := by
  cases r <;> rfl

/-! ### Words of blocks -/

/-- A word is made of its four bytes (20_memory.md rule R60). -/
theorem bytesWord_wordByte (w : Word) :
    bytesWord (wordByte w 0) (wordByte w 1) (wordByte w 2) (wordByte w 3) = w := by
  apply BitVec.eq_of_getLsbD_eq
  intro i hi
  simp only [bytesWord, wordByte, BitVec.getLsbD_or, BitVec.getLsbD_shiftLeft, BitVec.getLsbD_setWidth,
    BitVec.getLsbD_extractLsb']
  grind

/-- Word j of a block after word k was replaced. -/
theorem blockWordAt_setBlockWord (b : Block) (k j : Fin 4) (d : Word) :
    blockWordAt (setBlockWord b k d) j = if j = k then d else blockWordAt b j := by
  have hdiv (i : Nat) (hi : i < 4) : (4 * j.val + i) / 4 = j.val := by omega
  have hmod (i : Nat) (hi : i < 4) : (4 * j.val + i) % 4 = i := by omega
  simp only [blockWordAt, getElem_setBlockWord, Fin.ext_iff]
  split
  · simp_all [bytesWord_wordByte]
  · simp_all

/-! ### The STATUS word -/

/-- A flag's word has the flag at its bit and 0 elsewhere. -/
theorem getLsbD_flagAt (b : Bool) {n i : Nat} (h : i < 32) :
    (flagAt b n).getLsbD i = (decide (i = n) && b) := by
  by_cases hn : i = n
  · subst hn; simp [flagAt, h]
  · simp only [flagAt, BitVec.getLsbD_shiftLeft, BitVec.getLsbD_setWidth, BitVec.getLsbD_ofBool]
    grind

/-- STATUS bit by bit (rule R24). -/
theorem getLsbD_statusWord (s : State) {i : Nat} (h : i < 32) :
    s.statusWord.getLsbD i =
      (decide (i = 0) && s.busy || decide (i = 1) && s.done || decide (i = 2) && s.ovr || decide (i = 3) && s.keyv
        || decide (i = 4) && s.ivv || decide (5 ≤ i) && s.err.getLsbD (i - 5)
        || decide (8 ≤ i) && s.outlen.getLsbD (i - 8) || decide (16 ≤ i) && s.nr.getLsbD (i - 16)) := by
  simp only [State.statusWord, BitVec.getLsbD_or, getLsbD_flagAt _ h, BitVec.getLsbD_shiftLeft,
    BitVec.getLsbD_setWidth, h]
  grind

/-- A field of STATUS is what its bits are. -/
theorem extractLsb'_statusWord {s : State} {n w : Nat} {x : BitVec w}
    (h : ∀ j, j < w → s.statusWord.getLsbD (n + j) = x.getLsbD j) : s.statusWord.extractLsb' n w = x := by
  apply BitVec.eq_of_getLsbD_eq
  intro j hj
  simpa [hj] using h j hj

/-- A write to STATUS clears DONE and OVR where bits 1 and 2 are 1 (rule R24). -/
theorem State.writeStatus_eq (s : State) (d : Word) :
    s.writeStatus d = { s with
      done := if d.getLsbD 1 then false else s.done, ovr := if d.getLsbD 2 then false else s.ovr } := by
  unfold State.writeStatus
  cases d.getLsbD 1 <;> cases d.getLsbD 2 <;> simp

/-- irq is IE and DONE (60_exceptions.md rule R310). -/
theorem State.irq_iff (s : State) : s.irq = true ↔ s.ie = true ∧ s.done = true := by simp [State.irq]

/-! ### Completions -/

/-- Every code of 60_exceptions.md rule R300 is at most 5. -/
theorem ErrCode.code_le (e : ErrCode) : e.code.toNat ≤ 5 := by cases e <;> decide

/-- Every completion answers a next state: a command's writes and then the completion's own. -/
theorem complete_eq_finish (s : State) : ∃ u e, Wrote s u ∧ complete s = .next (u.finish e) := by
  obtain ⟨i, -, hc⟩ | ⟨-, -, hc⟩ := complete_cases s
  · obtain ⟨e, -, he⟩ | ⟨u, hw, hu⟩ := exec_cases i s
    · exact ⟨s, e, .nothing, hc.trans he⟩
    · exact ⟨u, .none, hw, hc.trans hu⟩
  · exact ⟨s, _, .nothing, hc⟩

/-- No command writes IE, PEND or the reset input. -/
theorem Wrote.frame {s u : State} (h : Wrote s u) : u.ie = s.ie ∧ u.pend = s.pend ∧ u.rst = s.rst := by
  cases h with
  | cipher mode => cases mode <;> exact ⟨rfl, rfl, rfl⟩
  | nothing | wiped | schedule | result | block => exact ⟨rfl, rfl, rfl⟩

/-- A command's writes keep OUTLEN at most 16 (10_state.md rule R30). -/
theorem Wrote.outlen_le {s u : State} (hw : Wrote s u) (h : s.outlen.toNat ≤ 16) : u.outlen.toNat ≤ 16 := by
  cases hw with
  | wiped => simp
  | cipher mode out next n hn =>
    have hn' : (BitVec.ofNat 5 n).toNat ≤ 16 := by simp; omega
    cases mode <;> exact hn'
  | nothing | schedule | result | block => exact h

/-- The commands that need a schedule raise InvalidKeyLength without one (92_eei_decisions.md D10). -/
theorem exec_of_no_schedule {s : State} {i : Instr} (h : s.keyv = false)
    (hi : (∃ mode final dlen, i = .enc mode final dlen ∨ i = .dec mode final dlen) ∨ ∃ k, i = .rkrd k ∨ i = .ark k) :
    exec i s = raise .invalidKeyLength s := by
  have hs : scheduleError s = some .invalidKeyLength := by simp [scheduleError, h]
  have hc (mode : Mode) (lenOk : Bool) : cipherError mode lenOk s = some .invalidKeyLength := by simp [cipherError, h]
  obtain ⟨mode, final, dlen, rfl | rfl⟩ | ⟨k, rfl | rfl⟩ := hi
  · simp only [exec, execEnc, hc]
  · simp only [exec, execDec, hc]
  · simp only [exec, execRkrd, hs]
  · simp only [exec, execArk, hs]

/-! ### The invariant, operation by operation -/

/-- The invariant holds of reset values, at either level of rst. -/
theorem Inv.resetEngine (s : State) (level : Bool) : Inv (s.resetEngine level) where
  schedule := .inl ⟨rfl, rfl⟩
  err_le := by simp [State.reset]
  outlen_le := by simp [State.reset]
  busy_not_done := by simp [State.reset]
  reset_holds := by rintro rfl; rfl

/-- The invariant does not look at the world outside the engine. -/
theorem Inv.outside {s : State} (h : Inv s) (program : List HostStep) (reads : List Word) (turns : List Turn) :
    Inv { s with program := program, reads := reads, turns := turns } where
  schedule := h.schedule
  err_le := h.err_le
  outlen_le := h.outlen_le
  busy_not_done := h.busy_not_done
  reset_holds hr :=
    congrArg (fun t : State => { t with program := program, reads := reads, turns := turns }) (h.reset_holds hr)

/-- A command's writes keep the store in agreement with KEY: only EXPAND fills it, from KEY (20_memory.md rule R77). -/
theorem ScheduleOk.wrote {s u : State} (h : ScheduleOk s) (hw : Wrote s u) : ScheduleOk u := by
  cases hw with
  | wiped => exact .inl ⟨rfl, rfl⟩
  | schedule klen nk nr hp => exact .inr ⟨rfl, klen, nk, nr, hp, rfl, rfl⟩
  | cipher mode => cases mode <;> exact h
  | nothing | result | block => exact h

/-- A completion keeps the invariant: rst is released, so there are no reset values to hold. -/
theorem Inv.complete {s t : State} (h : Inv s) (hrst : s.rst = false) (hc : complete s = .next t) : Inv t := by
  obtain ⟨u, e, hw, hu⟩ := complete_eq_finish s
  obtain rfl : u.finish e = t := Host.Outcome.next.inj (hu.symm.trans hc)
  obtain ⟨-, -, hurst⟩ := hw.frame
  have hsched : ScheduleOk u := h.schedule.wrote hw
  exact {
    schedule := hsched
    err_le := e.code_le
    outlen_le := hw.outlen_le h.outlen_le
    busy_not_done := by simp
    reset_holds := by simp [hurst, hrst] }

/-- A host write keeps the invariant: a KEY write gives the schedule up, and an accept clears DONE. -/
theorem Inv.hostWrote {s u : State} (h : Inv s) (hw : HostWrote s u) : Inv u := by
  cases hw with
  | nothing => exact h
  | status d hrst =>
    exact { h with
      busy_not_done := fun hb => by simp [State.writeStatus, h.busy_not_done hb]
      reset_holds := by simp [hrst] }
  | accepted d hrst _ => exact { h with busy_not_done := fun _ => rfl, reset_holds := by simp [hrst] }
  | key k d hrst _ => exact { h with schedule := .inl ⟨rfl, rfl⟩, reset_holds := by simp [hrst] }
  | ctrl _ hrst | dropped hrst _ | iv _ _ hrst _ | din _ _ hrst _ =>
    exact {
      schedule := by simpa [ScheduleOk] using h.schedule
      err_le := by simpa using h.err_le
      outlen_le := by simpa using h.outlen_le
      busy_not_done := by simpa using h.busy_not_done
      reset_holds := by simp [hrst] }

theorem Inv.hostMove {s : State} (h : Inv s) : Inv (hostMove s) := by
  obtain ⟨u, reads, program, hw, hm⟩ := hostMove_cases s
  rw [hm]
  exact (h.hostWrote hw).outside program reads u.turns

theorem Inv.driveReset {s : State} (h : Inv s) (level : Bool) : Inv (driveReset level s) := by
  obtain hd | ⟨-, -, hd⟩ := driveReset_cases level s
  · rw [hd]; exact .resetEngine s level
  · rw [hd]; exact h

/-! ### Host moves while a command is pending -/

/-- The state with the host's side of another: the flags a host access can change while a command is pending, the
reset input and the world outside the engine. What stays of the first are the command's operands and results. -/
def State.underHost (s f : State) : State :=
  { s with
    ie := f.ie, busy := f.busy, done := f.done, ovr := f.ovr, rst := f.rst
    program := f.program, reads := f.reads, turns := f.turns }

@[simp] theorem State.underHost_pend (s f : State) : (s.underHost f).pend = s.pend := rfl

/-- The host's side is the last one given. -/
@[simp] theorem State.underHost_underHost (s f g : State) : (s.underHost f).underHost g = s.underHost g := rfl

/-- A host write keeps the results, the reset input and the schedule of turns (20_memory.md rule R67). -/
theorem HostWrote.frame {s u : State} (h : HostWrote s u) :
    u.dout = s.dout ∧ u.result = s.result ∧ u.rk = s.rk ∧ u.err = s.err ∧ u.outlen = s.outlen ∧ u.rst = s.rst ∧
      u.turns = s.turns := by
  cases h <;> simp

/-- While a command is pending a host write changes the host's side only, and BUSY stays 1 (10_state.md rule R44). -/
theorem HostWrote.of_busy {s u : State} (h : HostWrote s u) (hb : s.busy = true) :
    u.busy = true ∧ u = s.underHost u := by
  cases h with
  | nothing | ctrl | status | dropped => exact ⟨hb, rfl⟩
  | accepted _ _ hidle | key _ _ _ hidle | iv _ _ _ hidle | din _ _ _ hidle => simp [hb] at hidle

theorem hostMove_frame (s : State) :
    (hostMove s).dout = s.dout ∧ (hostMove s).result = s.result ∧ (hostMove s).rk = s.rk ∧
      (hostMove s).err = s.err ∧ (hostMove s).outlen = s.outlen ∧ (hostMove s).rst = s.rst ∧
      (hostMove s).turns = s.turns := by
  obtain ⟨u, reads, program, hw, hm⟩ := hostMove_cases s
  rw [hm]
  exact hw.frame

theorem hostMove_of_busy {s : State} (hb : s.busy = true) :
    (hostMove s).busy = true ∧ hostMove s = s.underHost (hostMove s) := by
  obtain ⟨u, reads, program, hw, hm⟩ := hostMove_cases s
  obtain ⟨hub, hu⟩ := hw.of_busy hb
  rw [hm]
  exact ⟨hub, congrArg (fun t : State => { t with reads := reads, program := program }) hu⟩

/-- After any number of host moves a pending command has the operands and results it had. -/
theorem hostMoves_of_busy (n : Nat) : ∀ {s : State}, s.busy = true → ∃ f, hostMoves n s = s.underHost f := by
  induction n with
  | zero => intro s _; exact ⟨s, rfl⟩
  | succ n ih =>
    intro s hb
    obtain ⟨hmb, hm⟩ := hostMove_of_busy hb
    obtain ⟨f, hf⟩ := ih hmb
    exact ⟨f, by rw [hostMoves, hf, hm, State.underHost_underHost]⟩

/-- Two outcomes are next states that differ in the host's side at most. -/
def AgreeUnderHost (r r' : Result) : Prop := ∃ t f, r = .next t ∧ r' = .next (State.underHost t f)

theorem agreeUnderHost_raise (e : ErrCode) (s f : State) :
    AgreeUnderHost (raise e s) (raise e (s.underHost f)) :=
  ⟨s.finish e, f.finish e, rfl, rfl⟩

theorem agreeUnderHost_succeed (s f : State) : AgreeUnderHost (succeed s) (succeed (s.underHost f)) :=
  ⟨s.finish .none, f.finish .none, rfl, rfl⟩

theorem agreeUnderHost_ite {b : Bool} {r₁ r₁' r₂ r₂' : Result} (h₁ : AgreeUnderHost r₁ r₁')
    (h₂ : AgreeUnderHost r₂ r₂') : AgreeUnderHost (if b then r₁ else r₂) (if b then r₁' else r₂') := by
  cases b
  · exact h₂
  · exact h₁

theorem putChain_underHost (mode : Mode) (b : Block) (s f : State) :
    putChain mode b (s.underHost f) = (putChain mode b s).underHost f := by
  cases mode <;> rfl

theorem agreeUnderHost_cipher (mode : Mode) (out next : Block) (n : Nat) (s f : State) :
    AgreeUnderHost (succeed (putChain mode next ((s.putDout out).putOutlen n)))
      (succeed (putChain mode next (((s.underHost f).putDout out).putOutlen n))) := by
  have h := agreeUnderHost_succeed (putChain mode next ((s.putDout out).putOutlen n)) f
  rwa [← putChain_underHost] at h

/-- A command reads nothing of the host's side: its operands alone make its results (20_memory.md rule R73). -/
theorem exec_underHost (i : Instr) (s f : State) : AgreeUnderHost (exec i s) (exec i (s.underHost f)) := by
  have err (e : ErrCode) := agreeUnderHost_raise e s f
  have ok (u : State) := agreeUnderHost_succeed u f
  have hsched : scheduleError (s.underHost f) = scheduleError s := rfl
  have hcipher (mode : Mode) (lenOk : Bool) : cipherError mode lenOk (s.underHost f) = cipherError mode lenOk s := rfl
  cases i with
  | nop => exact ok s
  | clear => exact agreeUnderHost_succeed s.wipe f.wipe
  | expand klen =>
    cases klen with
    | kbad => exact err _
    | k128 | k192 | k256 => exact ok (s.putSchedule _ _)
  | enc mode final dlen =>
    simp only [exec, execEnc, hcipher]
    split
    · exact err _
    · exact agreeUnderHost_cipher ..
  | dec mode final dlen =>
    simp only [exec, execDec, hcipher]
    split
    · exact err _
    · exact agreeUnderHost_ite (err .invalidPadding) (agreeUnderHost_cipher ..)
  | rkrd k =>
    simp only [exec, execRkrd, hsched]
    split
    · exact err _
    · exact ok (s.putDout _)
  | ark k =>
    simp only [exec, execArk, hsched]
    split
    · exact err _
    · exact ok (s.putDout _)
  | gfmul | gfinv | sbox | isbox => exact ok (s.putResult _)
  | subb | isubb | shr | ishr | mixc | imixc => exact ok (s.putDout _)

theorem complete_underHost (s f : State) : AgreeUnderHost (complete s) (complete (s.underHost f)) := by
  simp only [complete, State.underHost_pend]
  split
  · exact exec_underHost _ s f
  · exact agreeUnderHost_raise _ s f

/-! ### Steps while a command is pending -/

/-- The engine moves when a command is pending and the schedule puts neither a host with a step left nor the platform
first (20_memory.md rule R72, log entry 1). -/
theorem nextMove_engine {s : State} (hb : s.busy = true) (hrst : s.rst = false)
    (h : s.turns = [] ∨ s.turns.head? = some .engine ∨ (s.turns.head? = some .host ∧ s.program = [])) :
    nextMove s = .engine := by
  have hc : completionEnabled s = true := by simp [completionEnabled, hb, hrst]
  unfold nextMove
  split <;> simp_all

theorem step_of_engine {s : State} (h : nextMove s = .engine) : step s = complete s.takeTurn := by
  rw [step, h]; rfl

/-- A step with a command pending and no reset in the schedule is the completion, or a host move that the schedule
puts first. -/
theorem step_of_pending {s : State} (hb : s.busy = true) (hrst : s.rst = false)
    (hno : ∀ level, Turn.reset level ∉ s.turns) :
    step s = complete s.takeTurn ∨ ∃ ts, s.turns = .host :: ts ∧ step s = .next (hostMove s.takeTurn) := by
  match hts : s.turns with
  | [] => exact .inl (step_of_engine (nextMove_engine hb hrst (.inl hts)))
  | .engine :: ts => exact .inl (step_of_engine (nextMove_engine hb hrst (.inr (.inl (by simp [hts])))))
  | .reset level :: ts => exact absurd (hts ▸ List.mem_cons_self) (hno level)
  | .host :: ts =>
    by_cases hp : s.program = []
    · exact .inl (step_of_engine (nextMove_engine hb hrst (.inr (.inr ⟨by simp [hts], hp⟩))))
    · exact .inr ⟨ts, rfl, by simp [step, nextMove, hts, hp, moveOf]⟩

theorem runFor_succ {s t : State} (h : step s = .next t) (n : Nat) : runFor (n + 1) s = runFor n t := by
  simp [runFor, h]

/-- A step that is the completion ends the command. -/
theorem runFor_one_of_complete {s : State} (h : step s = complete s.takeTurn) :
    ∃ t, runFor 1 s = .next t ∧ t.busy = false ∧ t.done = true := by
  obtain ⟨u, e, -, hc⟩ := complete_eq_finish s.takeTurn
  exact ⟨u.finish e, runFor_succ (h.trans hc) 0, rfl, rfl⟩

/-! ### The statements -/

/-- Settles O54: each agent's move keeps the invariant, and so does using up the schedule's entry before it. -/
theorem invariantKept : Obligations.InvariantKept := by
  intro s t h hst
  have h' : Inv s.takeTurn := h.outside s.program s.reads s.turns.tail
  obtain ⟨level, hs⟩ | ⟨-, hs⟩ | ⟨-, hrst, hs⟩ | hs := step_cases s <;> rw [hs] at hst
  · cases hst; exact h'.driveReset level
  · cases hst; exact h'.hostMove
  · exact h'.complete hrst hst
  · cases hst; exact h'

/-- Settles O36: a completion is the completion's own writes after the command's, and no command writes PEND. -/
theorem completionEndsCommand : Obligations.CompletionEndsCommand := by
  intro s
  obtain ⟨u, e, hw, hc⟩ := complete_eq_finish s
  obtain ⟨-, hpend, -⟩ := hw.frame
  exact ⟨_, hc, rfl, rfl, hpend, e.code_le⟩

/-- Settles O43, by what a block's words are after one of them was replaced. -/
theorem readBackWritten : Obligations.ReadBackWritten := by
  intro s d k j hrst hbusy
  have hiv : memWrite (regOffset (.iv k)) 0b1111#4 d s = s.writeIv k d := by
    rw [memWrite_regOffset hrst, regWrite_iv_idle hbusy]
  have hdin : memWrite (regOffset (.din k)) 0b1111#4 d s = s.writeDin k d := by
    rw [memWrite_regOffset hrst, regWrite_din_idle hbusy]
  rw [hiv, hdin]
  simp [memRead_regOffset, hrst, regRead, blockWordAt_setBlockWord]

/-- Settles O55: a host move changes no result, and only the host's side while a command is pending. -/
theorem hostMovesKeepResults : Obligations.HostMovesKeepResults := by
  intro s
  obtain ⟨hdout, hresult, hrk, herr, houtlen, -, -⟩ := hostMove_frame s
  refine ⟨hdout, hresult, hrk, herr, houtlen, fun hb => ?_⟩
  obtain ⟨hbusy, hm⟩ := hostMove_of_busy hb
  rw [hm]
  exact ⟨rfl, rfl, rfl, rfl, rfl, rfl, rfl, hbusy⟩

/-- Settles O56, by induction on the schedule: every step is the completion or uses up a host's entry. -/
theorem pendingCommandCompletes : Obligations.PendingCommandCompletes := by
  intro s
  induction hts : s.turns generalizing s with
  | nil =>
    intro hb hrst _
    obtain hs | ⟨ts, hcons, -⟩ := step_of_pending hb hrst (by simp [hts])
    · obtain ⟨t, ht⟩ := runFor_one_of_complete hs
      exact ⟨1, t, by simp, ht⟩
    · simp [hts] at hcons
  | cons turn ts ih =>
    intro hb hrst hno
    obtain hs | ⟨-, -, hs⟩ := step_of_pending hb hrst (hts ▸ hno)
    · obtain ⟨t, ht⟩ := runFor_one_of_complete hs
      exact ⟨1, t, by simp, ht⟩
    · obtain ⟨hbusy, -⟩ := hostMove_of_busy (s := s.takeTurn) hb
      obtain ⟨-, -, -, -, -, hrst', hturns⟩ := hostMove_frame s.takeTurn
      have hturns' : (hostMove s.takeTurn).turns = ts := by simp [hturns, hts]
      have hno' (level : Bool) : Turn.reset level ∉ ts := fun hmem => hno level (List.mem_cons_of_mem turn hmem)
      obtain ⟨n, t, hn, ht, hend⟩ := ih _ hturns' hbusy (hrst'.trans hrst) hno'
      exact ⟨n + 1, t, by simpa using hn, (runFor_succ hs n).trans ht, hend⟩

/-- Settles O58: host moves leave a pending command its operands, and these alone make its results. -/
theorem resultsIgnoreSchedule : Obligations.ResultsIgnoreSchedule := by
  intro s n hb _
  obtain ⟨f, hf⟩ := hostMoves_of_busy n hb
  obtain ⟨t, g, ht, hu⟩ := complete_underHost s f
  exact ⟨t, t.underHost g, ht, hf ▸ hu, rfl, rfl, rfl, rfl, rfl, rfl, rfl, rfl, rfl, rfl, rfl⟩

/-- Settles O37: the flags and registers are State.reset's own, the blocks byte by byte. -/
theorem resetValues : Obligations.ResetValues := by
  have hkey (k : Nat) (h : k < 8) : State.reset.key[k] = 0#32 := by simp [State.reset]
  have hrk (r : Nat) (hr : r < 15) (k : Nat) (h : k < 16) : State.reset.rk[r][k] = 0#8 := by simp [State.reset]
  have hid : memRead 0x60#8 0b1111#4 State.reset = 0x41455301#32 := memRead_regOffset rfl .id
  exact ⟨rfl, rfl, rfl, rfl, rfl, rfl, rfl, rfl, rfl, hkey, hrk,
    fun k h => ⟨getElem_zeroBlock k h, getElem_zeroBlock k h, getElem_zeroBlock k h⟩,
    rfl, rfl, by decide, rfl, hid⟩

/-- Settles O38, bit by bit. -/
theorem statusRegister : Obligations.StatusRegister := by
  intro s d hrst
  have hread : memRead 0x04#8 0b1111#4 s = s.statusWord := memRead_regOffset hrst .status
  have hwrite : memWrite 0x04#8 0b1111#4 d s = s.writeStatus d := memWrite_regOffset hrst .status d
  rw [hread, hwrite, s.writeStatus_eq d]
  refine ⟨?busy, ?done, ?ovr, ?keyv, ?ivv, ?err, ?outlen, ?rsv13, ?nr, ?rsv20, rfl⟩
  case busy | done | ovr | keyv => rw [getLsbD_statusWord s (by decide)]; simp
  case ivv => rw [getLsbD_statusWord s (by decide)]; simp [State.ivv]
  case err | outlen | rsv13 | nr | rsv20 =>
    apply extractLsb'_statusWord
    intro j hj
    rw [getLsbD_statusWord s (by omega)]
    interval_cases j <;> simp

/-- Settles O44: a read is 0 or a register's value. -/
theorem keyRegistersUnreadable : Obligations.KeyRegistersUnreadable := by
  intro s off lanes key rk pend
  simp only [memRead, regRead_secrets]

/-- Settles O45: a KEY write clears KEYV, and without it the commands raise the error before they compute. -/
theorem keyWriteInvalidates : Obligations.KeyWriteInvalidates := by
  intro s k d mode final dlen i hrst hbusy
  have hw : memWrite (regOffset (.key k)) 0b1111#4 d s = s.writeKey k d := by
    rw [memWrite_regOffset hrst, regWrite_key_idle hbusy]
  rw [hw]
  exact ⟨rfl, rfl, rfl, by simp, exec_of_no_schedule rfl (by simp), exec_of_no_schedule rfl (by simp),
    exec_of_no_schedule rfl (by simp), exec_of_no_schedule rfl (by simp)⟩

/-- Settles O46: completion sets DONE and keeps IE; each of the other events clears one of them. -/
theorem interruptLevel : Obligations.InterruptLevel := by
  intro s d
  refine ⟨s.irq_iff, ?complete, ?ack, ?accept, ?disable, rfl, rfl⟩
  case complete =>
    obtain ⟨u, e, hw, hc⟩ := complete_eq_finish s
    obtain ⟨hie, -, -⟩ := hw.frame
    exact ⟨_, hc, by simp [State.irq, hie]⟩
  case ack =>
    intro hrst hd
    have hw : memWrite 0x04#8 0b1111#4 d s = s.writeStatus d := memWrite_regOffset hrst .status d
    rw [hw, State.irq, State.writeStatus_done, hd]
    simp
  case accept =>
    intro hrst hbusy
    have hw : memWrite 0x08#8 0b1111#4 d s = s.accept d :=
      (memWrite_regOffset hrst .cmd d).trans (regWrite_cmd_idle hbusy d)
    simp [hw, State.irq]
  case disable =>
    intro hrst hd
    have hw : memWrite 0x00#8 0b1111#4 d s = s.writeCtrl d := memWrite_regOffset hrst .ctrl d
    rw [hw, State.irq, State.writeCtrl_ie, hd, Bool.false_and]

/-- Settles O47: the engine moves, and its completion is the meaning of what PEND decodes to. -/
theorem stepRunsCommand : Obligations.StepRunsCommand := by
  intro s i hb hrst hturn hdec
  have hc : complete s.takeTurn = exec i s.takeTurn := by
    rw [complete, State.takeTurn_pend, hdec]
  exact (step_of_engine (nextMove_engine hb hrst hturn)).trans hc

/-- Settles O49: the entry that withFetchWord puts in front of the schedule is the engine's. -/
theorem fetchWordRunsNext : Obligations.FetchWordRunsNext := by
  intro s w
  have hmove : nextMove (s.withFetchWord 32 w) = .engine := nextMove_engine rfl rfl (.inr (.inl rfl))
  have hword : wordOfTable 32 w = BitVec.ofNat 32 w := by
    apply BitVec.eq_of_toNat_eq
    simp [wordOfTable]
  rw [step_of_engine hmove, State.withFetchWord, hword]
  rfl

/-- Settles O53: the state after reset is a state at its reset values with rst released. -/
theorem invariantAtReset : Obligations.InvariantAtReset := Inv.resetEngine State.reset false

end Sys2Proof.Machine
end

section
/-! PROOFS. The statements about the register window, its byte order, the host's transactions and the engines of a
platform (20_memory.md): the laws they need first, then each statement from them. -/

namespace Sys2Proof.Machine

/-! ### Bytes of words and words of blocks -/

/-- The bytes of a word are those it was made of (20_memory.md rule R60). -/
theorem wordByte_bytesWord (b0 b1 b2 b3 : Byte) :
    wordByte (bytesWord b0 b1 b2 b3) 0 = b0 ∧ wordByte (bytesWord b0 b1 b2 b3) 1 = b1 ∧
      wordByte (bytesWord b0 b1 b2 b3) 2 = b2 ∧ wordByte (bytesWord b0 b1 b2 b3) 3 = b3 := by
  refine ⟨?_, ?_, ?_, ?_⟩ <;>
  · apply BitVec.eq_of_getLsbD_eq
    intro i hi
    simp (disch := omega) [wordByte, bytesWord, hi] <;> omega

/-- Byte j of word k of a block is the block's byte 4k + j. -/
theorem wordByte_blockWordAt (b : Block) (k : Fin 4) {j : Nat} (hj : j < 4) :
    wordByte (blockWordAt b k) j = b[4 * k.val + j] := by
  obtain ⟨h0, h1, h2, h3⟩ :=
    wordByte_bytesWord b[4 * k.val] b[4 * k.val + 1] b[4 * k.val + 2] b[4 * k.val + 3]
  match j, hj with
  | 0, _ => exact h0
  | 1, _ => exact h1
  | 2, _ => exact h2
  | 3, _ => exact h3

/-- Byte 4k + j of a block made of words is byte j of word k. -/
theorem getElem_blockOfWords_of_lt (w0 w1 w2 w3 : Word) {k j : Nat} (hk : k < 4) (hj : j < 4) :
    (blockOfWords w0 w1 w2 w3)[4 * k + j] = wordByte (pickWord w0 w1 w2 w3 k) j := by
  have hdiv : (4 * k + j) / 4 = k := by omega
  have hmod : (4 * k + j) % 4 = j := by omega
  rw [getElem_blockOfWords, hdiv, hmod]

/-- Word k of a block made of words is word k. -/
theorem blockWordAt_blockOfWords (w0 w1 w2 w3 : Word) (k : Fin 4) :
    blockWordAt (blockOfWords w0 w1 w2 w3) k = pickWord w0 w1 w2 w3 k := by
  have h (j : Nat) (hj : j < 4) := getElem_blockOfWords_of_lt w0 w1 w2 w3 k.isLt hj
  have h0 : (blockOfWords w0 w1 w2 w3)[4 * k.val] = wordByte (pickWord w0 w1 w2 w3 k) 0 := h 0 (by decide)
  rw [blockWordAt, h0, h 1 (by decide), h 2 (by decide), h 3 (by decide), bytesWord_wordByte]

/-- A block is made of its words. -/
theorem blockOfWords_blockWordAt (b : Block) :
    blockOfWords (blockWordAt b 0) (blockWordAt b 1) (blockWordAt b 2) (blockWordAt b 3) = b := by
  have hpick (k : Fin 4) :
      pickWord (blockWordAt b 0) (blockWordAt b 1) (blockWordAt b 2) (blockWordAt b 3) k = blockWordAt b k := by
    fin_cases k <;> rfl
  ext n hn
  have hk : n / 4 < 4 := by omega
  rw [getElem_blockOfWords, hpick ⟨n / 4, hk⟩, wordByte_blockWordAt b _ (Nat.mod_lt n (by decide))]
  simp only [Nat.div_add_mod]

/-! ### Accesses by offset -/

/-- An access is good when its offset is a multiple of 4 and all its lanes are enabled (20_memory.md rule R66). -/
theorem accessOk_iff (off : BitVec 8) (lanes : BitVec 4) :
    accessOk off lanes = true ↔ off.toNat % 4 = 0 ∧ lanes = 0b1111#4 := by
  simp [accessOk]

theorem memRead_of_bad_access {off : BitVec 8} {lanes : BitVec 4} (h : accessOk off lanes = false) (s : State) :
    memRead off lanes s = 0#32 := by
  simp [memRead, h]

theorem memWrite_of_bad_access {off : BitVec 8} {lanes : BitVec 4} (h : accessOk off lanes = false) (d : Word)
    (s : State) : memWrite off lanes d s = s := by
  simp [memWrite, h]

/-- An aligned read is a read of the register at its word number. -/
theorem memRead_aligned {s : State} {off : BitVec 8} (hrst : s.rst = false) (h : off.toNat % 4 = 0) :
    memRead off 0b1111#4 s = regRead (regOfWord (off.toNat / 4)) s := by
  simp [memRead, hrst, accessOk, h]

/-- An aligned write is a write to the register at its word number. -/
theorem memWrite_aligned {s : State} {off : BitVec 8} (hrst : s.rst = false) (h : off.toNat % 4 = 0) (d : Word) :
    memWrite off 0b1111#4 d s = regWrite (regOfWord (off.toNat / 4)) d s := by
  simp [memWrite, hrst, accessOk, h]

/-- The word numbers above ID's are reserved (20_memory.md rule R63). -/
theorem regOfWord_reserved {n : Nat} (h : 25 ≤ n) : regOfWord n = .reserved := by
  simp (disch := omega) only [regOfWord, if_neg, dif_neg]

/-- RESULT, DOUT, ID and the reserved window ignore writes (20_memory.md rules R63 and R65). -/
theorem regWrite_readOnly {n : Nat} (h : n = 3 ∨ 20 ≤ n) (d : Word) (s : State) :
    regWrite (regOfWord n) d s = s := by
  unfold regOfWord
  split_ifs <;> simp only [regWrite] <;> omega

/-! ### The host's move and the schedule -/

theorem regWrite_setTurns (r : Reg) (d : Word) (s : State) (ts : List Turn) :
    regWrite r d { s with turns := ts } = { regWrite r d s with turns := ts } := by
  cases r with
  | cmd | key | iv | din => cases hb : s.busy <;> simp [regWrite, hb] <;> rfl
  | ctrl | status | result | dout | id | reserved => rfl

theorem memWrite_setTurns (off : BitVec 8) (lanes : BitVec 4) (d : Word) (s : State) (ts : List Turn) :
    memWrite off lanes d { s with turns := ts } = { memWrite off lanes d s with turns := ts } := by
  unfold memWrite
  split
  · rfl
  · split
    · exact regWrite_setTurns ..
    · rfl

/-- The host does not look at the schedule. -/
theorem hostMove_setTurns (s : State) (ts : List Turn) :
    hostMove { s with turns := ts } = { hostMove s with turns := ts } := by
  obtain ⟨p, h⟩ : ∃ p, s.program = p := ⟨_, rfl⟩
  match p, h with
  | [], h => simp only [hostMove, h]
  | .read _ _ :: _, h => rw [hostMove_read h, hostMove_read (s := { s with turns := ts }) h]; rfl
  | .write _ _ _ :: _, h =>
    rw [hostMove_write h, hostMove_write (s := { s with turns := ts }) h, memWrite_setTurns]
  | .wait :: _, h => rw [hostMove_wait h, hostMove_wait (s := { s with turns := ts }) h]; rfl
  | .waitIrq :: _, h => rw [hostMove_waitIrq h, hostMove_waitIrq (s := { s with turns := ts }) h]; rfl

/-- A host move uses up at most one step of the program. -/
theorem length_program_le_hostMove (s : State) : s.program.length ≤ (hostMove s).program.length + 1 := by
  match h : s.program with
  | [] => simp
  | .read off lanes :: rest => simp [hostMove_read h]
  | .write off lanes d :: rest => simp [hostMove_write h]
  | .wait :: rest => rw [hostMove_wait h]; split <;> simp [h]
  | .waitIrq :: rest => rw [hostMove_waitIrq h]; split <;> simp [h]

/-- The host moves when it has a step left and the schedule puts it first, or puts the platform not first while the
engine has nothing to complete (20_memory.md rule R72, log entry 1). -/
theorem nextMove_host {s : State} (hp : s.program ≠ [])
    (h : s.turns.head? = some .host ∨
      ((s.turns = [] ∨ s.turns.head? = some .engine) ∧ (s.busy = false ∨ s.rst = true))) :
    nextMove s = .host := by
  obtain hhost | ⟨hfirst, hidle⟩ := h
  · obtain ⟨ts, hts⟩ := List.head?_eq_some_iff.mp hhost
    simp [nextMove, hts, hp]
  · have hc : completionEnabled s = false := by
      obtain h | h := hidle <;> simp [completionEnabled, h]
    obtain hts | hengine := hfirst
    · simp [nextMove, hts, hc, hp]
    · obtain ⟨ts, hts⟩ := List.head?_eq_some_iff.mp hengine
      simp [nextMove, hts, hc, hp]

theorem step_of_host {s : State} (h : nextMove s = .host) : step s = .next (hostMove s.takeTurn) := by
  rw [step, h]; rfl

/-- With a host entry in front of the schedule the step is the host's move, and the entry is used up. -/
theorem step_hostFirst {s : State} (hp : s.program ≠ []) (ts : List Turn) :
    step { s with turns := .host :: ts } = .next { hostMove s with turns := ts } := by
  have hmove : nextMove { s with turns := .host :: ts } = .host := nextMove_host hp (.inl rfl)
  exact (step_of_host hmove).trans (congrArg _ (hostMove_setTurns s ts))

theorem runFor_one (s : State) : runFor 1 s = step s := by
  unfold runFor
  cases step s <;> rfl

/-! ### The engines of a platform -/

theorem platformStep_of_getElem? {p : Platform} {k : Nat} {e : EngineAt} {t : State} (h : p[k]? = some e)
    (hs : step e.engine = .next t) : platformStep k p = .next (p.set k { e with engine := t }) := by
  simp [platformStep, h, hs]

/-- What a bus write makes of every engine: the host write on the one the address belongs to. -/
theorem getElem?_busWrite (p : Platform) (addr : Word) (lanes : BitVec 4) (d : Word) (j : Nat) :
    (busWrite p addr lanes d)[j]? = p[j]?.map fun e =>
      if instanceOf p addr = some j then { e with engine := memWrite (windowOffset addr) lanes d e.engine } else e := by
  unfold busWrite
  cases instanceOf p addr with
  | none => simp
  | some k => simp [List.getElem?_modify]

/-- A bus read is the host read on the engine the address belongs to. -/
theorem busRead_eq (p : Platform) (addr : Word) (lanes : BitVec 4) :
    busRead p addr lanes = (instanceOf p addr).bind fun j =>
      p[j]?.map fun e => memRead (windowOffset addr) lanes e.engine := by
  rw [busRead, instanceOf]
  cases h : p.findIdx? fun e => covers e addr with
  | none =>
    have hnone : p.find? (fun e => covers e addr) = none := by simpa using h
    simp [hnone]
  | some j =>
    obtain ⟨-, hj⟩ := List.findIdx?_eq_some_iff_findIdx_eq.mp h
    rw [List.find?_eq_getElem?_findIdx, hj]
    rfl

/-- What keeps each engine's BASE keeps the list of them. -/
theorem map_base_congr {p q : Platform} (h : ∀ j : Nat, q[j]?.map EngineAt.base = p[j]?.map EngineAt.base) :
    q.map (fun e => e.base) = p.map (fun e => e.base) :=
  List.ext_getElem? fun j => by simpa using h j

/-- Windows that hold a common address have the same BASE (20_memory.md rule R70). -/
theorem base_eq_of_covers {e e' : EngineAt} {addr : Word} (hb : e.base.setWidth 8 = 0#8)
    (hb' : e'.base.setWidth 8 = 0#8) (h : covers e addr = true) (h' : covers e' addr = true) : e.base = e'.base := by
  have hmod : e.base.toNat % 256 = 0 := by simpa using congrArg BitVec.toNat hb
  have hmod' : e'.base.toNat % 256 = 0 := by simpa using congrArg BitVec.toNat hb'
  rw [covers_iff hb] at h
  rw [covers_iff hb'] at h'
  exact BitVec.eq_of_toNat_eq (by omega)

/-- On a well-placed platform an address belongs to the one engine whose window holds it. -/
theorem instanceOf_eq_some_iff {p : Platform} {j : Nat} {e : EngineAt} (hp : platformOk p = true)
    (he : p[j]? = some e) (addr : Word) : instanceOf p addr = some j ↔ covers e addr = true := by
  obtain ⟨-, hbase, hnodup⟩ := (platformOk_iff p).mp hp
  have haligned {e' : EngineAt} (h : e' ∈ p) : e'.base.setWidth 8 = 0#8 := hbase _ (List.mem_map_of_mem h)
  obtain ⟨hj, rfl⟩ := List.getElem?_eq_some_iff.mp he
  rw [instanceOf, List.findIdx?_eq_some_iff_getElem]
  constructor
  · exact fun ⟨_, hcov, _⟩ => hcov
  · intro hcov
    refine ⟨hj, hcov, fun i hij hi => ?_⟩
    have heq : p[i].base = p[j].base :=
      base_eq_of_covers (haligned (List.getElem_mem _)) (haligned (List.getElem_mem _)) hi hcov
    have hindex : i = j := by
      rw [← hnodup.getElem_inj_iff (hi := by simp; omega) (hj := by simpa using hj)]
      simpa using heq
    omega

/-! ### The statements -/

/-- Settles O42: a block's byte 4k + j is byte j of its word k, and a word is its four bytes. -/
theorem byteOrder : Obligations.ByteOrder := by
  refine ⟨fun w0 w1 w2 w3 j h => ?bytes, fun w0 w1 w2 w3 => ?words, blockOfWords_blockWordAt, ?spec⟩
  case bytes =>
    have hbyte (k : Nat) (hk : k < 4) := getElem_blockOfWords_of_lt w0 w1 w2 w3 hk h
    refine ⟨?_, hbyte 1 (by decide), hbyte 2 (by decide), hbyte 3 (by decide)⟩
    simpa [pickWord, wordByte] using hbyte 0 (by decide)
  case words =>
    have hword := blockWordAt_blockOfWords w0 w1 w2 w3
    exact ⟨hword 0, hword 1, hword 2, hword 3⟩
  case spec => decide

/-- Settles O50: the moves of the host and the platform are total, and every completion answers. -/
theorem everyStepAnswers : Obligations.EveryStepAnswers := by
  intro s
  obtain ⟨level, hs⟩ | ⟨-, hs⟩ | ⟨-, -, hs⟩ | hs := step_cases s
  · exact ⟨_, hs⟩
  · exact ⟨_, hs⟩
  · obtain ⟨u, e, -, hc⟩ := complete_eq_finish s.takeTurn
    exact ⟨_, hs.trans hc⟩
  · exact ⟨_, hs⟩

/-- Settles O57, by induction on the number of host moves: each uses up one entry and at most one step of the program,
and leaves the command pending. -/
theorem everyPositionAdmitted : Obligations.EveryPositionAdmitted := by
  intro s n rest
  induction n generalizing s with
  | zero =>
    intro hb hrst _
    rw [runFor_one]
    exact step_of_engine (nextMove_engine hb hrst (.inr (.inl rfl)))
  | succ n ih =>
    intro hb hrst hn
    have hp : s.program ≠ [] := List.ne_nil_of_length_pos (by omega)
    obtain ⟨hb', -⟩ := hostMove_of_busy hb
    obtain ⟨-, -, -, -, -, hrst', -⟩ := hostMove_frame s
    have hn' := length_program_le_hostMove s
    rw [List.replicate_succ, List.cons_append, runFor_succ (step_hostFirst hp _)]
    exact ih (hostMove s) hb' (hrst'.trans hrst) (by omega)

/-- Settles O59: an engine's step and a bus access change one entry of the list, its engine alone. -/
theorem instancesIndependent : Obligations.InstancesIndependent := by
  intro p
  refine ⟨fun k => ?step, fun addr lanes d j e he => ⟨?write, fun hi => ?read⟩,
    fun addr lanes d => ⟨map_base_congr fun j => ?bases, fun hi => ?unanswered⟩, fun addr j e hp he => ?window⟩
  case step =>
    cases hk : p[k]? with
    | none => exact ⟨p, by simp [platformStep, hk], by simp, fun _ _ => rfl, rfl⟩
    | some e =>
      obtain ⟨t, ht⟩ := everyStepAnswers e.engine
      obtain ⟨hlt, -⟩ := List.getElem?_eq_some_iff.mp hk
      refine ⟨_, platformStep_of_getElem? hk ht, ?own, fun j hj => List.getElem?_set_ne hj.symm,
        map_base_congr fun j => ?kept⟩
      case own =>
        rintro e' ⟨⟩
        exact ⟨t, ht, List.getElem?_set_self hlt⟩
      case kept =>
        by_cases hj : j = k
        · rw [hj, List.getElem?_set_self hlt, hk]; rfl
        · rw [List.getElem?_set_ne (Ne.symm hj)]
  case write => rw [getElem?_busWrite, he]; rfl
  case read => rw [busRead_eq, hi]; simp [he]
  case bases =>
    rw [getElem?_busWrite, Option.map_map]
    congr 1
    funext e
    simp only [Function.comp]
    split <;> rfl
  case unanswered => rw [busRead_eq, hi]; rfl
  case window =>
    obtain ⟨-, hbase, -⟩ := (platformOk_iff p).mp hp
    rw [instanceOf_eq_some_iff hp he, covers_iff (hbase _ (List.mem_map_of_mem (List.mem_of_getElem? he)))]

/-- Settles O39: every named offset is its register's, and the word numbers above ID's are reserved. -/
theorem readMap : Obligations.ReadMap := by
  intro s off hrst
  have hread := memRead_regOffset hrst
  refine ⟨hread .ctrl, hread .status, hread .cmd, hread .result, fun k => hread (.key k),
    fun k => ⟨hread (.iv k), hread (.din k), hread (.dout k)⟩, hread .id, fun h4 hoff => ?_⟩
  rw [memRead_aligned hrst h4, regOfWord_reserved (by omega)]
  rfl

/-- Settles O40: every named offset is its register's, and the other aligned offsets are those of read-only
registers. -/
theorem writeMap : Obligations.WriteMap := by
  intro s off d hrst
  have hwrite (r : Reg) := memWrite_regOffset hrst r d
  refine ⟨hwrite .ctrl, (hwrite .status).trans (s.writeStatus_eq d), hwrite .cmd, fun k => hwrite (.key k),
    fun k => hwrite (.iv k), fun k => hwrite (.din k), fun h4 hoff => ?_⟩
  rw [memWrite_aligned hrst h4, regWrite_readOnly (by omega)]

/-- Settles O41: such an access is not a good one. -/
theorem misalignedAccess : Obligations.MisalignedAccess := by
  intro s off lanes d h
  have hbad : accessOk off lanes = false := by
    rw [← Bool.not_eq_true, accessOk_iff]
    tauto
  exact ⟨memRead_of_bad_access hbad s, memWrite_of_bad_access hbad d s⟩

/-- Settles O48: it is the host's move, and its move is what the head of the program says. -/
theorem stepRunsHost : Obligations.StepRunsHost := by
  intro s hp hturn
  have hstep : step s = .next (hostMove s.takeTurn) := step_of_host (nextMove_host hp hturn)
  refine ⟨hstep, fun off lanes rest h => ?_, fun off lanes d rest h => ?_, fun rest h => ?_, fun rest h => ?_⟩
  · rw [hstep, hostMove_read (s := s.takeTurn) h]; rfl
  · rw [hstep, hostMove_write (s := s.takeTurn) h]; rfl
  · rw [hstep, hostMove_wait (s := s.takeTurn) h]; rfl
  · rw [hstep, hostMove_waitIrq (s := s.takeTurn) h]; rfl

end Sys2Proof.Machine
end

section
/-! PROOFS. The statements about the encoding (30_encoding.md): the fields of a word that is put together from fields,
the fields each command reads, the bits it uses, and then each statement from these. -/

namespace Sys2Proof

/-! ### The fields of a command word -/

section Fields
variable (op : BitVec 5) (mode final : BitVec 1) (klen : BitVec 2) (dlen : BitVec 5) (a b : Byte)

/-- A command word bit by bit (rule R90). -/
theorem getLsbD_cmdWord {k : Nat} (hk : k < 32) :
    (cmdWord op mode final klen dlen a b).getLsbD k =
      (op.getLsbD k || decide (5 ≤ k) && mode.getLsbD (k - 5) || decide (6 ≤ k) && final.getLsbD (k - 6)
        || decide (8 ≤ k) && klen.getLsbD (k - 8) || decide (10 ≤ k) && dlen.getLsbD (k - 10)
        || decide (16 ≤ k) && a.getLsbD (k - 16) || decide (24 ≤ k) && b.getLsbD (k - 24)) := by
  simp only [cmdWord, BitVec.getLsbD_or, BitVec.getLsbD_shiftLeft, BitVec.getLsbD_setWidth, hk]
  grind

/-- A command word's fields are those it was made of, and its reserved bits are 0 (rules R91 to R95, R102). -/
theorem fields_cmdWord :
    (cmdWord op mode final klen dlen a b).extractLsb' 0 5 = op ∧
      (cmdWord op mode final klen dlen a b).extractLsb' 5 1 = mode ∧
      (cmdWord op mode final klen dlen a b).extractLsb' 6 1 = final ∧
      (cmdWord op mode final klen dlen a b).extractLsb' 7 1 = 0#1 ∧
      (cmdWord op mode final klen dlen a b).extractLsb' 8 2 = klen ∧
      (cmdWord op mode final klen dlen a b).extractLsb' 10 5 = dlen ∧
      (cmdWord op mode final klen dlen a b).extractLsb' 15 1 = 0#1 ∧
      (cmdWord op mode final klen dlen a b).extractLsb' 16 4 = a.extractLsb' 0 4 ∧
      (cmdWord op mode final klen dlen a b).extractLsb' 16 8 = a ∧
      (cmdWord op mode final klen dlen a b).extractLsb' 24 8 = b := by
  refine ⟨?op, ?mode, ?final, ?rsv7, ?klen, ?dlen, ?rsv15, ?index, ?a, ?b⟩
  all_goals
    apply BitVec.eq_of_getLsbD_eq
    intro j hj
    rw [BitVec.getLsbD_extractLsb', getLsbD_cmdWord _ _ _ _ _ _ _ (by omega)]
    grind

end Fields

theorem extractLsb'_one (p : Word) (n : Nat) : p.extractLsb' n 1 = BitVec.ofBool (p.getLsbD n) := by
  apply BitVec.eq_of_getLsbD_eq
  intro j hj
  obtain rfl : j = 0 := by omega
  simp

theorem extractLsb'_one_eq_zero_iff (p : Word) (n : Nat) : p.extractLsb' n 1 = 0#1 ↔ p.getLsbD n = false := by
  rw [extractLsb'_one]
  cases p.getLsbD n <;> decide

/-- A word with RSV7 and RSV15 clear is made of its fields (rule R90). -/
theorem cmdWord_fields {p : Word} (h7 : p.extractLsb' 7 1 = 0#1) (h15 : p.extractLsb' 15 1 = 0#1) :
    cmdWord (p.extractLsb' 0 5) (p.extractLsb' 5 1) (p.extractLsb' 6 1) (p.extractLsb' 8 2) (p.extractLsb' 10 5)
      (p.extractLsb' 16 8) (p.extractLsb' 24 8) = p := by
  rw [extractLsb'_one_eq_zero_iff] at h7 h15
  apply BitVec.eq_of_getLsbD_eq
  intro k hk
  rw [getLsbD_cmdWord _ _ _ _ _ _ _ hk]
  interval_cases k <;> simp [-BitVec.getLsbD_eq_getElem, h7, h15]

/-- A round-key index fills A when the high half of A is 0 (rule R95). -/
theorem aField_eq_ofNat_indexField {p : Word} (h : p.extractLsb' 20 4 = 0#4) :
    p.extractLsb' 16 8 = BitVec.ofNat 8 (p.extractLsb' 16 4).toNat := by
  rw [← BitVec.toNat_inj] at h ⊢
  simp only [BitVec.extractLsb'_toNat, BitVec.toNat_ofNat, Nat.shiftRight_eq_div_pow] at h ⊢
  omega

theorem klenField_eq_iff (p : Word) (klen : KeyLen) : klenField p = klen ↔ p.extractLsb' 8 2 = klenCode klen := by
  unfold klenField
  generalize p.extractLsb' 8 2 = code
  revert code; cases klen <;> decide

theorem modeField_eq_iff (p : Word) (mode : Mode) : modeField p = mode ↔ p.extractLsb' 5 1 = modeCode mode := by
  rw [modeField, extractLsb'_one]
  cases p.getLsbD 5 <;> cases mode <;> decide

theorem finalField_eq_iff (p : Word) (final : Bool) :
    finalField p = final ↔ p.extractLsb' 6 1 = BitVec.ofBool final := by
  rw [finalField, extractLsb'_one]
  cases p.getLsbD 6 <;> cases final <;> decide

/-! ### The command of a word -/

/-- The fields a command uses hold the codes of its operands in a word (rules R92 to R95, R97). -/
def Instr.FieldsIn (p : Word) : Instr → Prop
  | .expand klen => p.extractLsb' 8 2 = klenCode klen
  | .enc mode final dlen | .dec mode final dlen =>
    p.extractLsb' 5 1 = modeCode mode ∧ p.extractLsb' 6 1 = BitVec.ofBool final ∧ (p.extractLsb' 10 5).toNat = dlen
  | .rkrd i | .ark i => (p.extractLsb' 16 4).toNat = i
  | .gfmul a b => p.extractLsb' 16 8 = a ∧ p.extractLsb' 24 8 = b
  | .gfinv a | .sbox a | .isbox a => p.extractLsb' 16 8 = a
  | .nop | .clear | .subb | .isubb | .shr | .ishr | .mixc | .imixc => True

theorem decodeOp_eq_some_iff (p : Word) (i : Instr) :
    decodeOp p = some i ↔ opField p = i.opcode ∧ i.FieldsIn p := by
  unfold decodeOp
  refine ⟨?read, ?hold⟩
  case' read => split <;> rintro ⟨⟩
  case' hold =>
    rintro ⟨hop, hf⟩
    rw [hop]
    cases i
  all_goals
    simp_all [Instr.opcode, Instr.FieldsIn, ← klenField_eq_iff, ← modeField_eq_iff, ← finalField_eq_iff, dlenField,
      indexField, aField, bField]

/-- Every opcode of the map has a command (rule R98). -/
theorem exists_decodeOp {p : Word} (h : opField p ≤ Config.lastOpcode) : ∃ i, decodeOp p = some i := by
  unfold decodeOp
  generalize opField p = op at h
  change op ≤ 16 at h
  interval_cases op <;> exact ⟨_, rfl⟩

theorem decode_eq_command_iff (p : Word) (i : Instr) :
    decode p = .command i ↔
      p.extractLsb' 7 1 = 0#1 ∧ p.extractLsb' 15 1 = 0#1 ∧ (p.extractLsb' 0 5).toNat = i.opcode ∧ i.FieldsIn p := by
  have hop := decodeOp_eq_some_iff p i
  rw [opField] at hop
  rw [← hop, extractLsb'_one_eq_zero_iff, extractLsb'_one_eq_zero_iff, decode]
  cases p.getLsbD 7 <;> cases p.getLsbD 15 <;> cases decodeOp p <;> simp

/-! ### The bits a command uses -/

/-- A mask with 1s in a field leaves the field as it is. -/
theorem extractLsb'_and_of_ones {p m : Word} {n w : Nat} (h : m.extractLsb' n w = BitVec.allOnes w) :
    (p &&& m).extractLsb' n w = p.extractLsb' n w := by
  rw [BitVec.extractLsb'_and, h, BitVec.and_allOnes]

/-- A mask with 0s in a field clears the field. -/
theorem extractLsb'_and_of_zeros {p m : Word} {n w : Nat} (h : m.extractLsb' n w = 0#w) :
    (p &&& m).extractLsb' n w = 0#w := by
  rw [BitVec.extractLsb'_and, h, BitVec.and_zero]

/-- Every command uses OP, RSV7 and RSV15. -/
theorem usedMask_ones (i : Instr) :
    i.usedMask.extractLsb' 0 5 = BitVec.allOnes 5 ∧ i.usedMask.extractLsb' 7 1 = BitVec.allOnes 1 ∧
      i.usedMask.extractLsb' 15 1 = BitVec.allOnes 1 := by
  cases i <;> simp only [Instr.usedMask] <;> decide

theorem fieldsIn_and_usedMask (p : Word) (i : Instr) : i.FieldsIn (p &&& i.usedMask) ↔ i.FieldsIn p := by
  cases i <;> simp (disch := decide) only [Instr.FieldsIn, Instr.usedMask, extractLsb'_and_of_ones]

/-- A command is decoded from the bits it uses (rule R97). -/
theorem decode_and_usedMask (p : Word) (i : Instr) :
    decode (p &&& i.usedMask) = .command i ↔ decode p = .command i := by
  obtain ⟨hop, h7, h15⟩ := usedMask_ones i
  simp only [decode_eq_command_iff, extractLsb'_and_of_ones hop, extractLsb'_and_of_ones h7,
    extractLsb'_and_of_ones h15, fieldsIn_and_usedMask]

theorem wellFormed_of_fieldsIn {p : Word} {i : Instr} (h : i.FieldsIn p) : i.WellFormed := by
  cases i with
  | enc mode final dlen | dec mode final dlen =>
    obtain ⟨-, -, rfl⟩ := h
    exact decide_eq_true (p.extractLsb' 10 5).isLt
  | rkrd k | ark k =>
    obtain rfl := h
    exact decide_eq_true (p.extractLsb' 16 4).isLt
  | _ => rfl

/-- The bits a decoded command uses are its own word (rules R97, R102). -/
theorem and_usedMask_eq_encode {p : Word} {i : Instr} (h : decode p = .command i) : p &&& i.usedMask = encode i := by
  obtain ⟨h7, h15, hop, hf⟩ := (decode_eq_command_iff _ i).mp ((decode_and_usedMask p i).mpr h)
  have hop' : (p &&& i.usedMask).extractLsb' 0 5 = BitVec.ofNat 5 i.opcode := by
    rw [← hop, BitVec.ofNat_toNat, BitVec.setWidth_eq]
  rw [← cmdWord_fields h7 h15, hop']
  cases i <;> simp (disch := decide) only [Instr.FieldsIn, Instr.usedMask, extractLsb'_and_of_zeros] at hf ⊢
  case expand klen => rw [hf]; rfl
  case enc mode final dlen | dec mode final dlen =>
    obtain ⟨hmode, hfinal, rfl⟩ := hf
    simp only [hmode, hfinal, encode, blockWord, BitVec.ofNat_toNat, BitVec.setWidth_eq]
    rfl
  case rkrd k | ark k => rw [aField_eq_ofNat_indexField (extractLsb'_and_of_zeros rfl), hf]; rfl
  case gfmul a b => obtain ⟨rfl, rfl⟩ := hf; rfl
  case gfinv a | sbox a | isbox a => rw [hf]; rfl
  all_goals rfl

/-- A command's word has the command's opcode. -/
theorem exists_encode_eq_cmdWord (i : Instr) :
    ∃ mode final klen dlen a b, encode i = cmdWord (BitVec.ofNat 5 i.opcode) mode final klen dlen a b := by
  cases i <;> exact ⟨_, _, _, _, _, _, rfl⟩

theorem fieldsIn_encode {i : Instr} (hi : i.WellFormed) : i.FieldsIn (encode i) := by
  cases i <;>
    simp only [Instr.FieldsIn, encode, blockWord, byteWord, fields_cmdWord, BitVec.toNat_ofNat, true_and, and_self]
  case enc mode final dlen | dec mode final dlen => exact Nat.mod_eq_of_lt (of_decide_eq_true hi)
  case rkrd k | ark k =>
    have hk : k < 16 := of_decide_eq_true hi
    simp only [BitVec.extractLsb'_toNat, BitVec.toNat_ofNat, Nat.shiftRight_zero]
    omega

/-- A word is an opcode under the decoder mask when OP is the opcode and the reserved bits are 0 (rule R98). -/
theorem and_decodeMask_eq_iff (p : Word) {op : Nat} (hop : op ≤ Config.lastOpcode) :
    p &&& Config.decodeMask = BitVec.ofNat 32 op ↔
      p.extractLsb' 7 1 = 0#1 ∧ p.extractLsb' 15 1 = 0#1 ∧ (p.extractLsb' 0 5).toNat = op := by
  have hop' : op ≤ 16 := hop
  constructor
  · intro h
    have hfield {n w : Nat} (hm : Config.decodeMask.extractLsb' n w = BitVec.allOnes w) :
        p.extractLsb' n w = (BitVec.ofNat 32 op).extractLsb' n w := by
      rw [← h, extractLsb'_and_of_ones hm]
    rw [hfield (by decide), hfield (by decide), hfield (by decide)]
    simp only [← BitVec.toNat_inj, BitVec.extractLsb'_toNat, BitVec.toNat_ofNat, Nat.shiftRight_eq_div_pow]
    omega
  · rintro ⟨h7, h15, rfl⟩
    calc p &&& Config.decodeMask = (p.extractLsb' 0 5).setWidth 32 := by
          conv_lhs => rw [← cmdWord_fields h7 h15]
          exact Laws.Opcode.cmdWord_mask ..
      _ = BitVec.ofNat 32 (p.extractLsb' 0 5).toNat := (BitVec.ofNat_toNat ..).symm

/-! ### The statements -/

/-- Settles O2: the word has the command's opcode, its reserved bits are 0, and the fields the command uses hold its
operands. -/
theorem decodeOfEncode : Obligations.DecodeOfEncode := by
  intro i hi
  obtain ⟨mode, final, klen, dlen, a, b, he⟩ := exists_encode_eq_cmdWord i
  obtain ⟨hop, -, -, h7, -, -, h15, -⟩ := fields_cmdWord (BitVec.ofNat 5 i.opcode) mode final klen dlen a b
  have hlt : i.opcode < 2 ^ 5 := Nat.lt_of_le_of_lt (Laws.Opcode.opcode_le i) (by decide)
  rw [← he] at hop h7 h15
  refine (decode_eq_command_iff _ i).mpr ⟨h7, h15, ?_, fieldsIn_encode hi⟩
  rw [hop, BitVec.toNat_ofNat, Nat.mod_eq_of_lt hlt]

/-- Settles O3: the operands come from fields, and the used bits, put together, are the command's word. -/
theorem decodeReadsUsedBits : Obligations.DecodeReadsUsedBits := by
  intro p i h
  obtain ⟨-, -, -, hf⟩ := (decode_eq_command_iff p i).mp h
  exact ⟨wellFormed_of_fieldsIn hf, and_usedMask_eq_encode h⟩

/-- Settles O4: the decoder reads a command from the bits the command uses. -/
theorem unusedFieldsIgnored : Obligations.UnusedFieldsIgnored := by
  intro p q i hp hq
  rw [← decode_and_usedMask, hq, decode_and_usedMask]
  exact hp

/-- Settles O5: every opcode of the map has a command, whatever the other fields hold. -/
theorem maskSelectsOpcode : Obligations.MaskSelectsOpcode := by
  intro p op hop
  refine Iff.trans ?_ (and_decodeMask_eq_iff p hop).symm
  constructor
  · rintro ⟨i, hi, rfl⟩
    obtain ⟨h7, h15, h, -⟩ := (decode_eq_command_iff p i).mp hi
    exact ⟨h7, h15, h⟩
  · rintro ⟨h7, h15, rfl⟩
    obtain ⟨i, hi⟩ := exists_decodeOp hop
    obtain ⟨h, hf⟩ := (decodeOp_eq_some_iff p i).mp hi
    exact ⟨i, (decode_eq_command_iff p i).mpr ⟨h7, h15, h, hf⟩, h.symm⟩

/-- Settles O1: ten words, each decoded. -/
theorem specWordsDecode : Obligations.SpecWordsDecode := by
  unfold Obligations.SpecWordsDecode
  decide

end Sys2Proof
end

section
/-! PROOFS. The statements about the field unit and the S-box ROMs (40_field_sbox.md). A map of bytes that is additive
and commutes with xtime passes through the loop of `gmul` on the first factor. Multiplications are such maps, which
gives the laws of the product; the 256th power is one, which makes a^254 the inverse; and the ROMs are read off the
inverse. -/

namespace Sys2Proof.Machine

/-! ### The laws of the product -/

theorem xtime_xor (a b : Byte) : xtime (a ^^^ b) = xtime a ^^^ xtime b := by
  have hreduce (p q : Bool) : (if p ^^ q then 0x1B#8 else 0x00#8) =
      (if p then 0x1B#8 else 0x00#8) ^^^ (if q then 0x1B#8 else 0x00#8) := by
    cases p <;> cases q <;> decide
  rw [xtime, BitVec.shiftLeft_xor_distrib, BitVec.getLsbD_xor, hreduce, xtime, xtime]
  ac_rfl

/-- A map of bytes that is linear over the field: it is additive and commutes with multiplication by 0x02. -/
structure FieldLinear (f : Byte → Byte) : Prop where
  map_xor : ∀ a b, f (a ^^^ b) = f a ^^^ f b
  map_xtime : ∀ a, f (xtime a) = xtime (f a)

theorem FieldLinear.map_zero {f : Byte → Byte} (h : FieldLinear f) : f 0#8 = 0#8 := by
  simpa using h.map_xor 0#8 0#8

/-- A linear map passes through the loop of the product on the first factor. -/
theorem FieldLinear.map_gmul {f : Byte → Byte} (h : FieldLinear f) (a b : Byte) : f (gmul a b) = gmul (f a) b := by
  have hturn (pa : Byte × Byte) (i : Nat) : gmulTurn b (Prod.map f f pa) i = Prod.map f f (gmulTurn b pa i) := by
    cases hb : b.getLsbD i <;> simp [gmulTurn, hb, h.map_xor, h.map_xtime]
  have hfold := List.foldl_hom (Prod.map f f) (init := (0#8, a)) (l := List.range 8) hturn
  rw [Prod.map_apply, h.map_zero] at hfold
  exact (congrArg Prod.fst hfold).symm

/-- The sum of two pairs of the product's loop. -/
def xorPair (p q : Byte × Byte) : Byte × Byte := (p.1 ^^^ q.1, p.2 ^^^ q.2)

/-- A turn of the loop is additive in the pair it works on. -/
theorem xorPair_gmulTurn (b : Byte) (p q : Byte × Byte) (i : Nat) :
    xorPair (gmulTurn b p i) (gmulTurn b q i) = gmulTurn b (xorPair p q) i := by
  cases hb : b.getLsbD i with
  | false => simp [gmulTurn, xorPair, hb, xtime_xor]
  | true =>
    simp only [gmulTurn, xorPair, hb, if_true, xtime_xor, Prod.mk.injEq, and_true]
    ac_rfl

theorem gmul_xor_left (a a' b : Byte) : gmul (a ^^^ a') b = gmul a b ^^^ gmul a' b := by
  have h := List.foldl_hom₂ (List.range 8) xorPair _ _ _ (0x00#8, a) (0x00#8, a') (xorPair_gmulTurn b)
  rw [xorPair, BitVec.xor_self] at h
  exact congrArg Prod.fst h

/-- Multiplication by 0x02 is itself linear, so it passes through the product. -/
theorem gmul_xtime_left (a b : Byte) : gmul (xtime a) b = xtime (gmul a b) :=
  (FieldLinear.map_gmul ⟨xtime_xor, fun _ => rfl⟩ a b).symm

theorem fieldLinear_gmul_right (b : Byte) : FieldLinear (gmul · b) where
  map_xor a a' := gmul_xor_left a a' b
  map_xtime a := gmul_xtime_left a b

/-- Multiplying 0x01 by b puts b's bits together again. -/
@[simp] theorem one_gmul : ∀ b : Byte, gmul 0x01#8 b = b := by decide +kernel

theorem gmul_comm (a b : Byte) : gmul a b = gmul b a :=
  calc gmul a b = gmul (gmul 0x01#8 a) b := by rw [one_gmul]
    _ = gmul (gmul 0x01#8 b) a := (fieldLinear_gmul_right b).map_gmul 0x01#8 a
    _ = gmul b a := by rw [one_gmul]

theorem gmul_assoc (a b c : Byte) : gmul (gmul a b) c = gmul a (gmul b c) :=
  calc gmul (gmul a b) c = gmul (gmul b a) c := by rw [gmul_comm a]
    _ = gmul (gmul b c) a := ((fieldLinear_gmul_right a).map_gmul b c).symm
    _ = gmul a (gmul b c) := gmul_comm _ _

theorem gmul_xor_right (a b b' : Byte) : gmul a (b ^^^ b') = gmul a b ^^^ gmul a b' := by
  rw [gmul_comm, gmul_xor_left, gmul_comm b, gmul_comm b']

@[simp] theorem gmul_one (a : Byte) : gmul a 0x01#8 = a := by rw [gmul_comm, one_gmul]

@[simp] theorem zero_gmul (b : Byte) : gmul 0x00#8 b = 0x00#8 := (fieldLinear_gmul_right b).map_zero

@[simp] theorem gmul_zero (a : Byte) : gmul a 0x00#8 = 0x00#8 := by rw [gmul_comm, zero_gmul]

/-! ### Powers and the inverse -/

theorem gmul_gpow (a : Byte) (m n : Nat) : gmul (gpow a m) (gpow a n) = gpow a (m + n) := by
  induction m with
  | zero => rw [gpow, one_gmul, Nat.zero_add]
  | succ m ih => rw [Nat.add_right_comm, gpow, gpow, gmul_assoc, ih]

theorem gsquare_gpow (a : Byte) (n : Nat) : gsquare (gpow a n) = gpow a (n + n) := gmul_gpow a n n

theorem gpow_gmul (a b : Byte) (n : Nat) : gpow (gmul a b) n = gmul (gpow a n) (gpow b n) := by
  induction n with
  | zero => rw [gpow, gpow, gpow, one_gmul]
  | succ n ih =>
    have : Std.Associative gmul := ⟨gmul_assoc⟩
    have : Std.Commutative gmul := ⟨gmul_comm⟩
    rw [gpow, gpow, gpow, ih]
    ac_rfl

/-- The squarings and products of `invert` add up to the exponent (rule R124). -/
theorem invert_eq_gpow (a : Byte) : invert a = gpow a 254 := by
  have h : gsquare a = gpow a 2 := by simp [gsquare, gpow]
  simp only [invert, h, gsquare_gpow, gmul_gpow]

/-- The two mixed products of a square of a sum are equal and cancel. -/
theorem gsquare_xor (a b : Byte) : gsquare (a ^^^ b) = gsquare a ^^^ gsquare b := by
  simp only [gsquare, gmul_xor_left, gmul_xor_right, gmul_comm b a]
  calc gmul a a ^^^ gmul a b ^^^ (gmul a b ^^^ gmul b b)
      = gmul a a ^^^ (gmul a b ^^^ gmul a b) ^^^ gmul b b := by ac_rfl
    _ = gmul a a ^^^ gmul b b := by rw [BitVec.xor_self, BitVec.xor_zero]

theorem gpow_two_pow_xor (a b : Byte) (k : Nat) :
    gpow (a ^^^ b) (2 ^ k) = gpow a (2 ^ k) ^^^ gpow b (2 ^ k) := by
  induction k with
  | zero => simp [gpow]
  | succ k ih => rw [Nat.pow_succ, Nat.mul_two, ← gsquare_gpow, ih, gsquare_xor, gsquare_gpow, gsquare_gpow]

theorem xtime_eq_gmul (a : Byte) : xtime a = gmul 0x02#8 a :=
  calc xtime a = xtime (gmul 0x01#8 a) := by rw [one_gmul]
    _ = gmul (xtime 0x01#8) a := (gmul_xtime_left _ _).symm
    _ = gmul 0x02#8 a := rfl

/-- The 256th power is additive, as squaring is, and fixes 0x02. -/
theorem fieldLinear_gpow_256 : FieldLinear (gpow · 256) where
  map_xor a b := gpow_two_pow_xor a b 8
  map_xtime a := by
    have htwo : gpow 0x02#8 256 = 0x02#8 := by decide +kernel
    simp only [xtime_eq_gmul, gpow_gmul, htwo]

/-- A linear map that fixes 0x01 is the identity. -/
theorem gpow_256 (a : Byte) : gpow a 256 = a :=
  calc gpow a 256 = gpow (gmul 0x01#8 a) 256 := by rw [one_gmul]
    _ = gmul (gpow 0x01#8 256) a := fieldLinear_gpow_256.map_gmul 0x01#8 a
    _ = gmul 0x01#8 a := congrArg (gmul · a) (by decide +kernel)
    _ = a := one_gmul a

/-- The S-box ROM against its construction, entry by entry (rules R128, R130): it gives every byte but 0 an inverse. -/
theorem gmul_invaffine_sboxRom : ∀ {a : Byte}, a ≠ 0x00#8 → gmul a (invaffine (sboxRom a)) = 0x01#8 := by
  decide +kernel

/-- `a ⊗ a^254` is 0x01 because `a^255 ⊗ a` is a and a can be divided out. -/
theorem gmul_invert {a : Byte} (ha : a ≠ 0x00#8) : gmul a (invert a) = 0x01#8 := by
  obtain ⟨x, hx⟩ : ∃ x, gmul a x = 0x01#8 := ⟨_, gmul_invaffine_sboxRom ha⟩
  calc gmul a (invert a) = gpow a 255 := by rw [invert_eq_gpow, ← gpow]
    _ = gmul (gpow a 255) (gmul a x) := by rw [hx, gmul_one]
    _ = gmul (gpow a 256) x := by rw [← gmul_assoc, gmul_comm (gpow a 255), ← gpow]
    _ = 0x01#8 := by rw [gpow_256, hx]

theorem gmul_eq_one_iff {a : Byte} (ha : a ≠ 0x00#8) (x : Byte) : gmul a x = 0x01#8 ↔ x = invert a := by
  constructor
  · intro h
    calc x = gmul (gmul a (invert a)) x := by rw [gmul_invert ha, one_gmul]
      _ = gmul (gmul a x) (invert a) := by rw [gmul_assoc, gmul_comm (invert a), gmul_assoc]
      _ = invert a := by rw [h, one_gmul]
  · rintro rfl
    exact gmul_invert ha

@[simp] theorem invert_zero : invert 0x00#8 = 0x00#8 := by rw [invert_eq_gpow, gpow, zero_gmul]

theorem invert_ne_zero {a : Byte} (ha : a ≠ 0x00#8) : invert a ≠ 0x00#8 := by
  intro h
  have h1 := gmul_invert ha
  rw [h, gmul_zero] at h1
  exact absurd h1 (by decide)

@[simp] theorem invert_invert (a : Byte) : invert (invert a) = a := by
  by_cases ha : a = 0x00#8
  · rw [ha, invert_zero, invert_zero]
  · exact ((gmul_eq_one_iff (invert_ne_zero ha) a).mp ((gmul_comm _ _).trans (gmul_invert ha))).symm

/-! ### The S-box tables -/

theorem affine_invaffine : ∀ y : Byte, affine (invaffine y) = y := by decide +kernel

/-- What the S-box ROM holds before the affine transform is an inverse, and there is only one. -/
theorem invaffine_sboxRom (b : Byte) : invaffine (sboxRom b) = invert b := by
  by_cases hb : b = 0x00#8
  · rw [hb, invert_zero]; decide +kernel
  · exact (gmul_eq_one_iff hb _).mp (gmul_invaffine_sboxRom hb)

theorem sboxRom_eq (b : Byte) : sboxRom b = affine (invert b) := by
  rw [← invaffine_sboxRom, affine_invaffine]

/-- The inverse ROM undoes the S-box ROM, entry by entry (rule R132). -/
@[simp] theorem invSboxRom_sboxRom : ∀ b : Byte, invSboxRom (sboxRom b) = b := by decide +kernel

/-- An injective map of the 256 bytes is onto, so the inverse is a two-sided one (rule R132). -/
@[simp] theorem sboxRom_invSboxRom (b : Byte) : sboxRom (invSboxRom b) = b := by
  have hinj : Function.Injective sboxRom := Function.LeftInverse.injective invSboxRom_sboxRom
  obtain ⟨a, rfl⟩ := Finite.surjective_of_injective hinj b
  rw [invSboxRom_sboxRom]

/-- The inverse ROM follows the S-box's construction backwards (rules R128, R131). -/
theorem invSboxRom_eq (b : Byte) : invSboxRom b = invert (invaffine b) :=
  calc invSboxRom b = invert (invert (invSboxRom b)) := by rw [invert_invert]
    _ = invert (invaffine (sboxRom (invSboxRom b))) := by rw [invaffine_sboxRom]
    _ = invert (invaffine b) := by rw [sboxRom_invSboxRom]

/-! ### The statements -/

/-- Settles O7: the product's loop is linear in its first factor, and the other laws follow from that. -/
theorem fieldLaws : Obligations.FieldLaws := by
  intro a b c
  exact ⟨BitVec.xor_self, gmul_comm a b, gmul_assoc a b c, gmul_xor_right a b c, gmul_one a, gmul_zero a⟩

/-- Settles O8: a product with a that is 0x01 can be divided by a, and `invert` is the power by its exponents. -/
theorem invertIsTheInverse : Obligations.InvertIsTheInverse :=
  ⟨fun _ x ha => gmul_eq_one_iff ha x, invert_eq_gpow, invert_zero⟩

/-- Settles O9: one table is checked against the construction and the other against the first; the rest is algebra. -/
theorem sboxConstruction : Obligations.SboxConstruction := fun b =>
  ⟨sboxRom_eq b, invSboxRom_eq b, invSboxRom_sboxRom b, sboxRom_invSboxRom b⟩

/-- Settles O10: each command is the write of RESULT and the completion without an error. -/
theorem byteCommandsComplete : Obligations.ByteCommandsComplete := fun _ _ _ => ⟨rfl, rfl, rfl, rfl⟩

end Sys2Proof.Machine
end

section
/-! PROOFS. The statements about the key schedule (41_key_schedule.md). The loop of the expansion keeps its words newest
first: it only adds words in front, and every word it adds obeys rule R164's recurrence. -/

namespace Sys2Proof.Machine

/-! ### The words of the expansion -/

@[simp] theorem length_expandFrom (nk n i : Nat) (ws : List Word) : (expandFrom nk n i ws).length = ws.length + n := by
  induction n generalizing i ws with
  | zero => rfl
  | succ n ih => rw [expandFrom, ih, List.length_cons]; omega

/-- The loop keeps the words it starts from. -/
theorem suffix_expandFrom (nk n i : Nat) (ws : List Word) : ws <:+ expandFrom nk n i ws := by
  induction n generalizing i ws with
  | zero => exact List.suffix_rfl
  | succ n ih => exact (List.suffix_cons _ ws).trans (ih _ _)

/-- Words that are newest first obey the recurrence of rule R164: the word with k newer ones is word
`length - 1 - k` of the expansion. -/
def ObeysRecurrence (nk : Nat) (ws : List Word) : Prop :=
  ∀ k, k + nk < ws.length →
    ws.getD k 0#32 = ws.getD (k + nk) 0#32 ^^^ scheduleTransform nk (ws.length - 1 - k) (ws.getD (k + 1) 0#32)

/-- The first Nk words are the key's, and the recurrence says nothing of them. -/
theorem obeysRecurrence_of_length_le {nk : Nat} {ws : List Word} (h : ws.length ≤ nk) : ObeysRecurrence nk ws := by
  intro k hk
  omega

/-- The word a turn of the loop adds obeys the recurrence. -/
theorem ObeysRecurrence.cons {nk : Nat} {ws : List Word} (hnk : 0 < nk) (h : ObeysRecurrence nk ws) :
    ObeysRecurrence nk ((ws.getD (nk - 1) 0#32 ^^^ scheduleTransform nk ws.length (ws.getD 0 0#32)) :: ws) := by
  obtain ⟨m, rfl⟩ : ∃ m, nk = m + 1 := ⟨nk - 1, by omega⟩
  intro k hk
  cases k with
  | zero => simp
  | succ k =>
    have hk' : k + (m + 1) < ws.length := by rw [List.length_cons] at hk; omega
    have hidx : ws.length - (k + 1) = ws.length - 1 - k := by omega
    simpa [Nat.add_right_comm k 1, hidx] using h k hk'

theorem ObeysRecurrence.expandFrom {nk : Nat} (hnk : 0 < nk) (n : Nat) {ws : List Word} (h : ObeysRecurrence nk ws) :
    ObeysRecurrence nk (expandFrom nk n ws.length ws) := by
  induction n generalizing ws with
  | zero => exact h
  | succ n ih => exact ih (h.cons hnk)

/-- The recurrence read with the first word first. -/
theorem ObeysRecurrence.getD_reverse {nk : Nat} {ws : List Word} (h : ObeysRecurrence nk ws) (hnk : 0 < nk) {i : Nat}
    (hge : nk ≤ i) (hi : i < ws.length) :
    ws.reverse.getD i 0#32 =
      ws.reverse.getD (i - nk) 0#32 ^^^ scheduleTransform nk i (ws.reverse.getD (i - 1) 0#32) := by
  have hold : ws.length - 1 - (i - nk) = ws.length - 1 - i + nk := by omega
  have hprev : ws.length - 1 - (i - 1) = ws.length - 1 - i + 1 := by omega
  have hnum : ws.length - 1 - (ws.length - 1 - i) = i := by omega
  have hrec := h (ws.length - 1 - i) (by omega)
  rwa [hnum, ← hold, ← hprev, ← List.getD_reverse i hi, ← List.getD_reverse _ (by omega),
    ← List.getD_reverse _ (by omega)] at hrec

/-- The legal key sizes have 4 to 8 key words and no more than the words of the schedule (30_encoding.md rule R93). -/
theorem keyParams_bounds {klen : KeyLen} {nk nr : Nat} (h : keyParams klen = some (nk, nr)) :
    4 ≤ nk ∧ nk ≤ 8 ∧ nk ≤ 4 * (nr + 1) := by
  cases klen <;> cases h <;> decide

/-- The expansion begins with the first Nk key words. -/
theorem getElem?_expandKey_of_lt (key : Vector Word 8) {nk : Nat} (nr : Nat) {i : Nat} (h : i < 8) (hi : i < nk) :
    (expandKey key nk nr)[i]? = some key[i] := by
  obtain ⟨later, hlater⟩ := suffix_expandFrom nk (4 * (nr + 1) - nk) nk (key.toList.take nk).reverse
  rw [expandKey, ← hlater, List.reverse_append, List.reverse_reverse]
  simp [List.getElem?_append, hi, h]

section
variable {klen : KeyLen} {nk nr : Nat} (hp : keyParams klen = some (nk, nr)) (key : Vector Word 8)
include hp

/-- The loop starts from Nk words. -/
theorem length_take_key : (key.toList.take nk).reverse.length = nk := by
  obtain ⟨-, hnk, -⟩ := keyParams_bounds hp
  simpa using hnk

theorem length_expandKey : (expandKey key nk nr).length = 4 * (nr + 1) := by
  obtain ⟨-, -, hnr⟩ := keyParams_bounds hp
  rw [expandKey, List.length_reverse, length_expandFrom, length_take_key hp]
  omega

theorem getElem?_expandKey {i : Nat} (hi : i < 4 * (nr + 1)) :
    (expandKey key nk nr)[i]? = some ((expandKey key nk nr).getD i 0#32) := by
  have hlen : i < (expandKey key nk nr).length := by rwa [length_expandKey hp]
  rw [List.getD_eq_getElem _ _ hlen, List.getElem?_eq_getElem hlen]

/-- Word i of the expansion from the words before it (rules R164, R165). -/
theorem expandKey_recurrence {i : Nat} (hge : nk ≤ i) (hi : i < 4 * (nr + 1)) :
    (expandKey key nk nr).getD i 0#32 = (expandKey key nk nr).getD (i - nk) 0#32 ^^^
      scheduleTransform nk i ((expandKey key nk nr).getD (i - 1) 0#32) := by
  obtain ⟨hnk4, -, -⟩ := keyParams_bounds hp
  have hpos : 0 < nk := by omega
  have hstart := length_take_key hp key
  have hloop := (obeysRecurrence_of_length_le hstart.le).expandFrom hpos (4 * (nr + 1) - nk)
  rw [hstart] at hloop
  exact hloop.getD_reverse hpos hge (by rw [length_expandFrom, hstart]; omega)

end

/-! ### The store -/

/-- The first byte of the word is the round constant (rule R164). -/
theorem bytesWord_zeros (b : Byte) : bytesWord b 0x00#8 0x00#8 0x00#8 = b.setWidth 32 <<< 24 := by simp [bytesWord]

/-- The expansion reads the first Nk key words only (rule R160). -/
theorem expandKey_congr {k k' : Vector Word 8} {nk : Nat} (h : ∀ (i : Nat) (h8 : i < 8), i < nk → k[i] = k'[i])
    (nr : Nat) : expandKey k nk nr = expandKey k' nk nr := by
  have htake : k.toList.take nk = k'.toList.take nk := by
    apply List.ext_getElem (by simp)
    intro i hi _
    obtain ⟨hink, hi8⟩ : i < nk ∧ i < 8 := by simpa using hi
    simpa using h i hi8 hink
  rw [expandKey, expandKey, htake]

/-! ### The commands that read a round key -/

theorem roundKey_of_lt (rk : Vector Block 15) {i : Nat} (h : i < 15) : roundKey rk i = rk[i] := dif_pos h

/-- Index 15 stands for the zero block (rule R175). -/
theorem roundKey_fifteen (rk : Vector Block 15) : roundKey rk 15 = zeroBlock := rfl

@[simp] theorem xorBlock_zeroBlock (b : Block) : xorBlock b zeroBlock = b := by
  ext k hk
  rw [getElem_xorBlock, getElem_zeroBlock, BitVec.xor_zero]

/-- With a schedule both commands end with success: RKRD shows the round key and ARK adds it to DIN. -/
theorem exec_rkrd_ark {s : State} (h : s.keyv = true) (i : Nat) :
    exec (.rkrd i) s = succeed (s.putDout (roundKey s.rk i)) ∧
      exec (.ark i) s = succeed (s.putDout (xorBlock s.din (roundKey s.rk i))) := by
  have hs : scheduleError s = none := by simp [scheduleError, h]
  constructor
  · simp only [exec, execRkrd, hs]
  · simp only [exec, execArk, hs, addRoundKey]

/-! ### The statements -/

/-- Settles O12: the loop keeps the key words it starts from and adds words that obey the recurrence. -/
theorem expansionRecurrence : Obligations.ExpansionRecurrence := by
  intro key klen nk nr hp
  have hword {i : Nat} := getElem?_expandKey hp key (i := i)
  refine ⟨length_expandKey hp key, fun i h hi => getElem?_expandKey_of_lt key nr h hi, fun i hge hi => ?_⟩
  refine ⟨_, _, _, hword hi, hword (by omega), hword (by omega), ?_⟩
  rw [expandKey_recurrence hp key hge hi, scheduleTransform, bytesWord_zeros]

/-- Settles O13: the expansion has the four words of every round key up to Nr, and its first four are the key's. -/
theorem roundKeyStore : Obligations.RoundKeyStore := by
  intro key klen nk nr hp
  obtain ⟨hnk4, -, -⟩ := keyParams_bounds hp
  refine ⟨fun r h hr => ?le, fun r h hr => ?above, ?zero⟩
  case le =>
    have hword (j : Nat) (hj : j < 4) := getElem?_expandKey hp key (i := 4 * r + j) (by omega)
    refine ⟨_, _, _, _, hword 0 (by decide), hword 1 (by decide), hword 2 (by decide), hword 3 (by decide), ?_⟩
    rw [getElem_roundKeys, if_pos hr]
    rfl
  case above => rw [getElem_roundKeys, if_neg (by omega)]
  case zero =>
    have hkey (i : Nat) (hi : i < 4) : (expandKey key nk nr).getD i 0#32 = key[i] := by
      rw [List.getD_eq_getElem?_getD, getElem?_expandKey_of_lt key nr (by omega) (by omega), Option.getD_some]
    rw [getElem_roundKeys, if_pos (Nat.zero_le nr), scheduleBlock, hkey 0 (by decide), hkey 1 (by decide),
      hkey 2 (by decide), hkey 3 (by decide)]

/-- Settles O15: the store is made of the expansion's words, and these come from the first Nk key words. -/
theorem higherKeyWordsNotRead : Obligations.HigherKeyWordsNotRead := by
  intro klen nk nr k k' _ h
  rw [roundKeys, roundKeys, expandKey_congr h]

/-- Settles O11: the rotation bit by bit, and the nine steps of the ROM. -/
theorem rotWordAndRcon : Obligations.RotWordAndRcon := by
  refine ⟨fun t => ?rot, rfl, fun j h1 h10 => ?rcon⟩
  case rot =>
    apply BitVec.eq_of_getLsbD_eq
    intro i hi
    simp only [rotWord, bytesWord, wordByte, BitVec.getLsbD_or, BitVec.getLsbD_shiftLeft, BitVec.getLsbD_setWidth,
      BitVec.getLsbD_extractLsb', BitVec.getLsbD_rotateLeft]
    grind
  case rcon => interval_cases j <;> decide

/-- Settles O14: EXPAND of each key size is EXPAND's writes and the completion's own. -/
theorem expandCompletes : Obligations.ExpandCompletes := fun _ => ⟨rfl, rfl, rfl, rfl⟩

/-- Settles O16: the two commands read one round key, or raise the error when there is none. -/
theorem roundKeyCommands : Obligations.RoundKeyCommands := by
  intro s i
  refine ⟨fun hkeyv hi => ?upto14, fun hkeyv => ?fifteen, fun hkeyv => ?none⟩
  case upto14 =>
    obtain ⟨hrkrd, hark⟩ := exec_rkrd_ark hkeyv i
    rw [hrkrd, hark, roundKey_of_lt s.rk (by omega)]
    exact ⟨rfl, rfl⟩
  case fifteen =>
    obtain ⟨hrkrd, hark⟩ := exec_rkrd_ark hkeyv 15
    rw [hrkrd, hark, roundKey_fifteen, xorBlock_zeroBlock]
    exact ⟨rfl, rfl⟩
  case none => exact ⟨exec_of_no_schedule hkeyv (by simp), exec_of_no_schedule hkeyv (by simp)⟩

end Sys2Proof.Machine
end

section
/-! PROOFS. The statements about the round pipeline (42_round_pipeline.md). A round transform and its inverse undo each
other in both orders, so a round and its inverse do, and the rounds of one direction undo those of the other. The column
transforms are products with a circulant matrix, and a product of two such matrices is again one. -/

namespace Sys2Proof.Machine

/-! ### The bytes of the row shifts and the column mixes -/

theorem cell_congr (b : Block) {r r' c c' : Nat} (hr : r % 4 = r' % 4) (hc : c % 4 = c' % 4) :
    cell b r c = cell b r' c' := by
  rw [← cell_mod, hr, hc, cell_mod]

/-- A block given by its entries, read at row r and column c. -/
theorem getElem_ofCells_cell (f : Nat → Nat → Byte) {r c n : Nat} (hr : r < 4) (h : n < 16) (hn : n = r + 4 * c) :
    (ofCells f)[n] = f r c := by
  subst hn
  rw [getElem_ofCells]
  congr 1 <;> omega

/-- The four bytes of a column times a circulant matrix: each row has the coefficients of the row above, moved right
by one. -/
theorem getElem_ofCells_circulantRow (m0 m1 m2 m3 : Byte) (b : Block) {c : Nat} (hc : c < 4) :
    let p := ofCells (circulantRow m0 m1 m2 m3 b)
    let a0 := b[4 * c]
    let a1 := b[1 + 4 * c]
    let a2 := b[2 + 4 * c]
    let a3 := b[3 + 4 * c]
    p[4 * c] = gmul m0 a0 ^^^ gmul m1 a1 ^^^ gmul m2 a2 ^^^ gmul m3 a3 ∧
    p[1 + 4 * c] = gmul m3 a0 ^^^ gmul m0 a1 ^^^ gmul m1 a2 ^^^ gmul m2 a3 ∧
    p[2 + 4 * c] = gmul m2 a0 ^^^ gmul m3 a1 ^^^ gmul m0 a2 ^^^ gmul m1 a3 ∧
    p[3 + 4 * c] = gmul m1 a0 ^^^ gmul m2 a1 ^^^ gmul m3 a2 ^^^ gmul m0 a3 := by
  have hrow {r n : Nat} (hr : r < 4) (h : n < 16) (hn : n = r + 4 * c) :
      (ofCells (circulantRow m0 m1 m2 m3 b))[n] = circulantRow m0 m1 m2 m3 b r c := getElem_ofCells_cell _ hr h hn
  have hcell (r : Nat) : cell b r c = b[r % 4 + 4 * c] := by simp only [cell, Nat.mod_eq_of_lt hc]
  simp only [hrow (r := 0) (n := 4 * c) (by decide) _ (by omega), hrow (r := 1) (by decide) _ rfl,
    hrow (r := 2) (by decide) _ rfl, hrow (r := 3) (by decide) _ rfl, circulantRow, hcell, Nat.reduceAdd, Nat.reduceMod,
    Nat.zero_add, true_and]
  refine ⟨?_, ?_, ?_⟩ <;> ac_rfl

/-! ### Each round transform and its inverse -/

@[simp] theorem invSubBytes_subBytes (b : Block) : invSubBytes (subBytes b) = b :=
  block_ext_cell fun r c => by rw [cell_invSubBytes, cell_subBytes, invSboxRom_sboxRom]

@[simp] theorem subBytes_invSubBytes (b : Block) : subBytes (invSubBytes b) = b :=
  block_ext_cell fun r c => by rw [cell_subBytes, cell_invSubBytes, sboxRom_invSboxRom]

theorem cell_shiftRows (b : Block) (r c : Nat) : cell (shiftRows b) r c = cell b r (c + r) := by
  rw [shiftRows, cell_ofCells]
  exact cell_congr b (Nat.mod_mod _ _) (by omega)

theorem cell_invShiftRows (b : Block) (r c : Nat) : cell (invShiftRows b) r c = cell b r (c + (4 - r % 4)) := by
  rw [invShiftRows, cell_ofCells]
  exact cell_congr b (Nat.mod_mod _ _) (by omega)

@[simp] theorem invShiftRows_shiftRows (b : Block) : invShiftRows (shiftRows b) = b :=
  block_ext_cell fun r c => by
    rw [cell_invShiftRows, cell_shiftRows]
    exact cell_congr b rfl (by omega)

@[simp] theorem shiftRows_invShiftRows (b : Block) : shiftRows (invShiftRows b) = b :=
  block_ext_cell fun r c => by
    rw [cell_shiftRows, cell_invShiftRows]
    exact cell_congr b rfl (by omega)

theorem subBytes_shiftRows (b : Block) : subBytes (shiftRows b) = shiftRows (subBytes b) :=
  block_ext_cell fun r c => by rw [cell_subBytes, cell_shiftRows, cell_shiftRows, cell_subBytes]

theorem invSubBytes_invShiftRows (b : Block) : invSubBytes (invShiftRows b) = invShiftRows (invSubBytes b) :=
  block_ext_cell fun r c => by rw [cell_invSubBytes, cell_invShiftRows, cell_invShiftRows, cell_invSubBytes]

@[simp] theorem xorBlock_xorBlock_cancel (b k : Block) : xorBlock (xorBlock b k) k = b :=
  block_ext_cell fun r c => by rw [cell_xorBlock, cell_xorBlock, BitVec.xor_assoc, BitVec.xor_self, BitVec.xor_zero]

@[simp] theorem addRoundKey_addRoundKey (b k : Block) : addRoundKey (addRoundKey b k) k = b :=
  xorBlock_xorBlock_cancel b k

/-! ### Products of circulant matrices -/

theorem cell_ofCells_circulantRow (m0 m1 m2 m3 : Byte) (b : Block) (r c : Nat) :
    cell (ofCells (circulantRow m0 m1 m2 m3 b)) r c = circulantRow m0 m1 m2 m3 b r c := by
  have hcell (k : Nat) : cell b (r % 4 + k) (c % 4) = cell b (r + k) c := cell_congr b (by omega) (Nat.mod_mod c 4)
  rw [cell_ofCells, circulantRow, circulantRow, hcell 1, hcell 2, hcell 3, cell_mod]

/-- A circulant matrix times another is the circulant matrix of the cyclic convolution of their first rows. -/
theorem circulantRow_ofCells (n0 n1 n2 n3 m0 m1 m2 m3 : Byte) (b : Block) (r c : Nat) :
    circulantRow n0 n1 n2 n3 (ofCells (circulantRow m0 m1 m2 m3 b)) r c =
      circulantRow
        (gmul n0 m0 ^^^ gmul n1 m3 ^^^ gmul n2 m2 ^^^ gmul n3 m1)
        (gmul n0 m1 ^^^ gmul n1 m0 ^^^ gmul n2 m3 ^^^ gmul n3 m2)
        (gmul n0 m2 ^^^ gmul n1 m1 ^^^ gmul n2 m0 ^^^ gmul n3 m3)
        (gmul n0 m3 ^^^ gmul n1 m2 ^^^ gmul n2 m1 ^^^ gmul n3 m0) b r c := by
  have hwrap (k : Nat) : cell b (r + (k + 4)) c = cell b (r + k) c := cell_congr b (by omega) rfl
  have h4 : cell b (r + 4) c = cell b r c := hwrap 0
  have h5 : cell b (r + 5) c = cell b (r + 1) c := hwrap 1
  have h6 : cell b (r + 6) c = cell b (r + 2) c := hwrap 2
  simp only [circulantRow, cell_ofCells_circulantRow, Nat.add_assoc, Nat.reduceAdd, h4, h5, h6, gmul_xor_right,
    gmul_xor_left, gmul_assoc]
  ac_rfl

/-- The circulant matrix with first row (01, 00, 00, 00) is the identity. -/
theorem circulantRow_one (b : Block) (r c : Nat) : circulantRow 0x01#8 0x00#8 0x00#8 0x00#8 b r c = cell b r c := by
  simp [circulantRow]

/-- Two circulant matrices undo each other when the convolution of their first rows is (01, 00, 00, 00). -/
theorem ofCells_circulantRow_cancel {n0 n1 n2 n3 m0 m1 m2 m3 : Byte}
    (h0 : gmul n0 m0 ^^^ gmul n1 m3 ^^^ gmul n2 m2 ^^^ gmul n3 m1 = 0x01#8)
    (h1 : gmul n0 m1 ^^^ gmul n1 m0 ^^^ gmul n2 m3 ^^^ gmul n3 m2 = 0x00#8)
    (h2 : gmul n0 m2 ^^^ gmul n1 m1 ^^^ gmul n2 m0 ^^^ gmul n3 m3 = 0x00#8)
    (h3 : gmul n0 m3 ^^^ gmul n1 m2 ^^^ gmul n2 m1 ^^^ gmul n3 m0 = 0x00#8) (b : Block) :
    ofCells (circulantRow n0 n1 n2 n3 (ofCells (circulantRow m0 m1 m2 m3 b))) = b :=
  block_ext_cell fun r c => by
    rw [cell_ofCells_circulantRow, circulantRow_ofCells, h0, h1, h2, h3, circulantRow_one]

@[simp] theorem invMixColumns_mixColumns (b : Block) : invMixColumns (mixColumns b) = b :=
  ofCells_circulantRow_cancel (by decide) (by decide) (by decide) (by decide) b

@[simp] theorem mixColumns_invMixColumns (b : Block) : mixColumns (invMixColumns b) = b :=
  ofCells_circulantRow_cancel (by decide) (by decide) (by decide) (by decide) b

/-! ### Rounds and the cipher -/

@[simp] theorem invCipherRound_cipherRound (rk : Vector Block 15) (r : Nat) (b : Block) :
    invCipherRound rk (cipherRound rk b r) r = b := by
  simp [invCipherRound, cipherRound]

@[simp] theorem cipherRound_invCipherRound (rk : Vector Block 15) (r : Nat) (b : Block) :
    cipherRound rk (invCipherRound rk b r) r = b := by
  simp [invCipherRound, cipherRound]

/-- Steps that are each undone by their inverse are undone by the inverses in reverse order. -/
theorem foldl_reverse_foldl {α β : Type} {f g : β → α → β} (h : ∀ a b, g (f b a) a = b) (l : List α) (b : β) :
    l.reverse.foldl g (l.foldl f b) = b := by
  induction l generalizing b with
  | nil => rfl
  | cons a l ih => rw [List.foldl_cons, List.reverse_cons, List.foldl_append, ih, List.foldl_cons, List.foldl_nil, h]

theorem invCipher_cipher (b : Block) (rk : Vector Block 15) (nr : Nat) : invCipher (cipher b rk nr) rk nr = b := by
  simp only [invCipher, cipher, addRoundKey_addRoundKey, invShiftRows_shiftRows, invSubBytes_subBytes,
    foldl_reverse_foldl (invCipherRound_cipherRound rk)]

theorem cipher_invCipher (b : Block) (rk : Vector Block 15) (nr : Nat) : cipher (invCipher b rk nr) rk nr = b := by
  have hrounds (l : List Nat) (x : Block) : l.foldl (cipherRound rk) (l.reverse.foldl (invCipherRound rk) x) = x := by
    simpa only [List.reverse_reverse] using foldl_reverse_foldl (cipherRound_invCipherRound rk) l.reverse x
  simp only [cipher, invCipher, hrounds, addRoundKey_addRoundKey, subBytes_invSubBytes, shiftRows_invShiftRows]

/-! ### The stages -/

theorem cipher_eq_stages (b : Block) (rk : Vector Block 15) (nr : Nat) :
    cipher b rk nr = (forwardStages nr).foldl (runStage rk) b := by
  simp only [forwardStages, List.foldl_append, List.foldl_cons, List.foldl_flatMap]
  rfl

theorem invCipher_eq_stages (b : Block) (rk : Vector Block 15) (nr : Nat) :
    invCipher b rk nr = (inverseStages nr).foldl (runStage rk) b := by
  simp only [inverseStages, List.foldl_append, List.foldl_cons, List.foldl_flatMap]
  rfl

/-- The numbers of the round keys: the first, those of the rounds between, and the last (rule R202). -/
theorem range_eq_cons_range' {nr : Nat} (h : 1 ≤ nr) : List.range (nr + 1) = 0 :: List.range' 1 (nr - 1) ++ [nr] := by
  obtain ⟨n, rfl⟩ := Nat.exists_eq_add_of_le' h
  rw [List.range_eq_range', List.range'_succ, List.range'_1_concat, Nat.add_sub_cancel, Nat.add_comm 1 n]
  rfl

/-! ### The single-stage commands -/

theorem succeed_putDout (s : State) (b : Block) :
    succeed (s.putDout b) = .next { s with dout := b, busy := false, done := true, err := 0#3 } := rfl

/-! ### One block encrypted and decrypted -/

/-- The success of ENC and DEC: their writes beside CV, and the schedule and IVMASK, which they keep. -/
theorem succeed_cipher (mode : Mode) (out next : Block) (n : Nat) (s : State) :
    ∃ u, succeed (putChain mode next ((s.putDout out).putOutlen n)) = .next u ∧
      u.err = 0#3 ∧ u.dout = out ∧ u.outlen = BitVec.ofNat 5 n ∧
      u.keyv = s.keyv ∧ u.nr = s.nr ∧ u.rk = s.rk ∧ u.ivmask = s.ivmask := by
  cases mode <;> exact ⟨_, rfl, rfl, rfl, rfl, rfl, rfl, rfl, rfl⟩

/-- Chaining is its own inverse (43_cipher_modes.md rules R240, R243). -/
@[simp] theorem chain_chain (mode : Mode) (cv b : Block) : chain mode cv (chain mode cv b) = b := by
  cases mode with
  | ecb => rfl
  | cbc => exact xorBlock_xorBlock_cancel b cv

/-- ENC and DEC find no error when a schedule is held, DLEN is legal and, in CBC, the IV is complete. -/
theorem cipherError_eq_none {mode : Mode} {lenOk : Bool} {s : State} (hkeyv : s.keyv = true) (hlen : lenOk = true)
    (hiv : mode = .cbc → s.ivmask = 0b1111#4) : cipherError mode lenOk s = none := by
  have hmask : ¬(mode = .cbc ∧ s.ivmask ≠ 0b1111#4) := fun ⟨hm, hne⟩ => hne (hiv hm)
  simp [cipherError, hkeyv, hlen, hmask]

theorem encLenOk_of_legal {final : Bool} {dlen : Nat} (hfull : final = false → dlen = 16)
    (hfinal : final = true → dlen ≤ 15) : encLenOk final dlen = true := by
  cases final with
  | false => simpa [encLenOk] using hfull rfl
  | true => simpa [encLenOk] using hfinal rfl

theorem exec_enc_of_legal {s : State} {mode : Mode} {final : Bool} {dlen : Nat} (hkeyv : s.keyv = true)
    (hlen : encLenOk final dlen = true) (hiv : mode = .cbc → s.ivmask = 0b1111#4) {c : Block}
    (hc : cipher (chain mode s.cv (encInput final dlen s.din)) s.rk s.nr.toNat = c) :
    exec (.enc mode final dlen) s = succeed (putChain mode c ((s.putDout c).putOutlen 16)) := by
  subst hc
  simp only [exec, execEnc, cipherError_eq_none hkeyv hlen hiv]

theorem exec_dec_of_legal {s : State} {mode : Mode} {final : Bool} (hkeyv : s.keyv = true)
    (hiv : mode = .cbc → s.ivmask = 0b1111#4) {p : Block}
    (hp : chain mode s.cv (invCipher s.din s.rk s.nr.toNat) = p) (hpad : final = true → unpadOk p = true) :
    exec (.dec mode final 16) s = succeed (putChain mode s.din ((s.putDout p).putOutlen (decOutlen final p))) := by
  have hok : (final && !unpadOk p) = false := by
    cases final with
    | false => rfl
    | true => rw [hpad rfl]; rfl
  subst hp
  simp only [exec, execDec, cipherError_eq_none hkeyv (rfl : decLenOk 16 = true) hiv, hok, Bool.false_eq_true, if_false]

/-- The last byte of a padded block is the pad's length (43_cipher_modes.md rules R232, R233). -/
theorem padLength_pad (b : Block) {l : Nat} (h : l ≤ 15) : padLength (pad b l) = 16 - l := by
  rw [padLength, getElem_pad, if_neg (by omega), BitVec.toNat_ofNat]
  omega

theorem unpadOk_pad (b : Block) {l : Nat} (h : l ≤ 15) : unpadOk (pad b l) = true := by
  have hlt (k : Fin 16) : k.val < 16 - (16 - l) ∨ (pad b l)[k] = (pad b l)[15] := by
    by_cases hk : k.val < l
    · exact .inl (by omega)
    · exact .inr (by rw [Fin.getElem_fin, getElem_pad, getElem_pad, if_neg hk, if_neg (by omega)])
  have hbounds : 1 ≤ 16 - l ∧ 16 - l ≤ 16 := by omega
  simpa [unpadOk, padLength_pad b h, hbounds] using hlt

/-- What DEC makes of the block ENC enciphered: the pad is good, and OUTLEN is DLEN. -/
theorem decOutlen_encInput {final : Bool} {dlen : Nat} (hfull : final = false → dlen = 16)
    (hfinal : final = true → dlen ≤ 15) (b : Block) : decOutlen final (encInput final dlen b) = dlen := by
  cases final with
  | false => exact (hfull rfl).symm
  | true =>
    have hlen := hfinal rfl
    simp only [decOutlen, encInput, if_true, padLength_pad b hlen]
    omega

theorem unpadOk_encInput {final : Bool} {dlen : Nat} (hfinal : final = true → dlen ≤ 15) (b : Block) :
    final = true → unpadOk (encInput final dlen b) = true := by
  rintro rfl
  exact unpadOk_pad b (hfinal rfl)

/-! ### The statements -/

/-- Settles O20: each law holds entry by entry, and the two column matrices multiply to the identity. -/
theorem transformInverses : Obligations.TransformInverses := fun b key =>
  ⟨invSubBytes_subBytes b, invShiftRows_shiftRows b, invMixColumns_mixColumns b, addRoundKey_addRoundKey b key,
    subBytes_shiftRows b, invSubBytes_invShiftRows b⟩

/-- Settles O21: a round and its inverse undo each other, and each direction runs the other's rounds in reverse. -/
theorem cipherRoundTrip : Obligations.CipherRoundTrip := fun b rk nr =>
  ⟨invCipher_cipher b rk nr, cipher_invCipher b rk nr⟩

/-- Settles O22: the ciphers run the stages of their rounds, and each round between the first and the last has one of
each kind. -/
theorem cipherIsItsStages : Obligations.CipherIsItsStages := by
  intro b rk nr hnr
  refine ⟨cipher_eq_stages b rk nr, invCipher_eq_stages b rk nr, ?forwardLength, ?inverseLength, ?forwardKeys,
    ?inverseKeys, ?counts⟩
  case forwardLength => simp [forwardStages]; omega
  case inverseLength => simp [inverseStages]; omega
  case forwardKeys => simp [forwardStages, List.filterMap_flatMap, range_eq_cons_range' hnr]
  case inverseKeys => simp [inverseStages, List.filterMap_flatMap, range_eq_cons_range' hnr]
  case counts =>
    simp [forwardStages, inverseStages, List.count_flatMap, Function.comp_def, Nat.sub_add_cancel hnr]

/-- Settles O27: DEC's condition on the pad is met by what ENC enciphered, and chaining and cipher are undone. -/
theorem encThenDec : Obligations.EncThenDec := by
  intro s mode final dlen hkeyv hfull hfinal hiv
  obtain ⟨c, hc⟩ : ∃ c, cipher (chain mode s.cv (encInput final dlen s.din)) s.rk s.nr.toNat = c := ⟨_, rfl⟩
  have henc := exec_enc_of_legal hkeyv (encLenOk_of_legal hfull hfinal) hiv hc
  obtain ⟨t, ht, -, rfl, -, hkeyv', hnr, hrk, hivmask⟩ := succeed_cipher mode c c 16 s
  have hplain : chain mode s.cv (invCipher t.dout t.rk t.nr.toNat) = encInput final dlen s.din := by
    rw [hnr, hrk, ← hc, invCipher_cipher, chain_chain]
  have hdec := exec_dec_of_legal (s := { t with din := t.dout, cv := s.cv }) (hkeyv'.trans hkeyv)
    (fun hm => hivmask.trans (hiv hm)) hplain (unpadOk_encInput hfinal s.din)
  rw [decOutlen_encInput hfull hfinal] at hdec
  obtain ⟨u, hu, herr, hdout, houtlen, -⟩ :=
    succeed_cipher mode (encInput final dlen s.din) t.dout dlen { t with din := t.dout, cv := s.cv }
  exact ⟨t, u, henc.trans ht, hdec.trans hu, herr, hdout, houtlen⟩

/-- Settles O17: each command is the write of DOUT and the completion without an error. -/
theorem stageCommandsComplete : Obligations.StageCommandsComplete := fun s =>
  ⟨succeed_putDout s (subBytes s.din), succeed_putDout s (invSubBytes s.din), succeed_putDout s (shiftRows s.din),
    succeed_putDout s (invShiftRows s.din), succeed_putDout s (mixColumns s.din),
    succeed_putDout s (invMixColumns s.din)⟩

/-- Settles O18: the transforms are given by their bytes or entries. -/
theorem byteTransforms : Obligations.ByteTransforms := by
  intro b key r c hr hc
  have hcell (c : Nat) : cell b r c = b[r + 4 * (c % 4)] := by simp only [cell, Nat.mod_eq_of_lt hr]
  refine ⟨getElem_subBytes _ _ _, getElem_invSubBytes _ _ _, ?shift, ?invShift, getElem_xorBlock _ _ _ _⟩
  case shift => rw [shiftRows, getElem_ofCells_cell _ hr _ rfl, hcell]
  case invShift =>
    have hcol : c + 4 - r = c + (4 - r) := Nat.add_sub_assoc hr.le c
    simp only [invShiftRows, getElem_ofCells_cell _ hr _ rfl, hcell, hcol]

/-- Settles O19: the columns of a circulant matrix with the coefficients of each of the two, where 0x01 leaves a byte
as it is. -/
theorem columnTransforms : Obligations.ColumnTransforms := by
  intro b c hc
  have hmix := getElem_ofCells_circulantRow 0x02#8 0x03#8 0x01#8 0x01#8 b hc
  simp only [one_gmul] at hmix
  obtain ⟨h0, h1, h2, h3⟩ := hmix
  exact ⟨h0, h1, h2, h3, getElem_ofCells_circulantRow 0x0E#8 0x0B#8 0x0D#8 0x09#8 b hc⟩

end Sys2Proof.Machine
end

section
/-! PROOFS. The statements about the block modes (43_cipher_modes.md). A run of ENC or DEC over blocks pairs a list of
plaintext blocks with a list of ciphertext blocks by rule R235's equation, in both directions: plaintext block i is
`plainBlock` of ciphertext block i and the one before it. The statements about streams are read off that equation. -/

namespace Sys2Proof.Machine

/-! ### One block -/

theorem chain_eq_if (mode : Mode) (cv b : Block) : chain mode cv b = if mode = .cbc then xorBlock b cv else b := by
  cases mode <;> rfl

/-- The whole next state of an ENC or DEC that succeeds (rules R240, R243). -/
theorem succeed_cipher_eq (mode : Mode) (out next : Block) (n : Nat) (s : State) :
    succeed (putChain mode next ((s.putDout out).putOutlen n)) = .next { s with
      dout := out, cv := if mode = .cbc then next else s.cv, outlen := BitVec.ofNat 5 n
      busy := false, done := true, err := 0#3 } := by
  cases mode <;> rfl

theorem unpadOk_iff (p : Block) :
    unpadOk p = true ↔
      1 ≤ p[15].toNat ∧ p[15].toNat ≤ 16 ∧ ∀ (k : Nat) (h : k < 16), 16 - p[15].toNat ≤ k → p[k] = p[15] := by
  simp only [unpadOk, Bool.and_eq_true, decide_eq_true_eq, List.all_eq_true, Bool.or_eq_true, beq_iff_eq, and_assoc,
    List.mem_finRange, forall_const, Fin.forall_iff, Fin.getElem_fin, or_iff_not_imp_left, not_lt]
  rfl

/-- A final DEC that meets every condition but the pad's takes the exception (rules R233, R243). -/
theorem exec_dec_of_bad_pad {s : State} {mode : Mode} (hkeyv : s.keyv = true) (hiv : mode = .cbc → s.ivmask = 0b1111#4)
    (hpad : unpadOk (chain mode s.cv (invCipher s.din s.rk s.nr.toNat)) = false) :
    exec (.dec mode true 16) s = raise .invalidPadding s := by
  simp only [exec, execDec, cipherError_eq_none hkeyv (rfl : decLenOk 16 = true) hiv, hpad, Bool.not_false,
    Bool.and_self, if_true]

theorem pad_congr {b b' : Block} {l : Nat} (h : ∀ (k : Nat) (_ : k < 16), k < l → b[k] = b'[k]) :
    pad b l = pad b' l := by
  ext k hk
  rw [getElem_pad, getElem_pad]
  split
  · rw [h k hk ‹_›]
  · rfl

/-! ### The statements about one block -/

/-- Settles O26: the check is a test of every byte, and DEC raises the error before it writes. -/
theorem unpadCheck : Obligations.UnpadCheck := by
  refine ⟨unpadOk_iff, ?_⟩
  intro s mode hkeyv hiv x p hpad
  exact exec_dec_of_bad_pad hkeyv hiv ((chain_eq_if mode s.cv x).symm ▸ hpad)

/-- Settles O23: no check of ENC finds an error, and its writes are those of a success. -/
theorem encCompletes : Obligations.EncCompletes := by
  intro s mode final dlen hkeyv hfull hfinal hiv p x c
  have hc : cipher (chain mode s.cv (encInput final dlen s.din)) s.rk s.nr.toNat = c := by rw [chain_eq_if]; rfl
  exact (exec_enc_of_legal hkeyv (encLenOk_of_legal hfull hfinal) hiv hc).trans (succeed_cipher_eq mode c c 16 s)

/-- Settles O24: no check of DEC finds an error, and its writes are those of a success. -/
theorem decCompletes : Obligations.DecCompletes := by
  intro s mode final hkeyv hiv x p hpad
  have hp : chain mode s.cv x = p := chain_eq_if mode s.cv x
  rw [exec_dec_of_legal hkeyv hiv hp hpad, succeed_cipher_eq]
  cases final <;> rfl

/-- Settles O25: the padded block is given byte by byte, and below DLEN alone it reads the block. -/
theorem padBytes : Obligations.PadBytes := fun b _ l _ => ⟨getElem_pad b l, pad_congr⟩

/-- Settles O31: in ECB what ENC enciphers is the block P alone. -/
theorem ecbDeterminism : Obligations.EcbDeterminism := by
  intro s s' final final' dlen dlen' hkeyv hkeyv' hfull hfinal hfull' hfinal' hrk hnr hP
  obtain ⟨c, hc⟩ : ∃ c, cipher (encInput final dlen s.din) s.rk s.nr.toNat = c := ⟨_, rfl⟩
  have hc' : cipher (encInput final' dlen' s'.din) s'.rk s'.nr.toNat = c := by rw [← hP, ← hrk, ← hnr, hc]
  have henc := exec_enc_of_legal (mode := .ecb) hkeyv (encLenOk_of_legal hfull hfinal) nofun hc
  have henc' := exec_enc_of_legal (mode := .ecb) hkeyv' (encLenOk_of_legal hfull' hfinal') nofun hc'
  exact ⟨_, _, henc.trans (succeed_cipher_eq ..), henc'.trans (succeed_cipher_eq ..), rfl, rfl, rfl⟩

/-! ### What ENC and DEC read beside DIN -/

/-- The state holds a schedule and, in CBC, a complete IV. -/
structure CipherReady (mode : Mode) (s : State) : Prop where
  keyv : s.keyv = true
  ivmask : mode = .cbc → s.ivmask = 0b1111#4

/-- ENC and DEC on the same DIN see no difference between the two states: the schedule and IVMASK are the same, and so
is what the mode makes of CV. -/
structure SameCipher (mode : Mode) (s t : State) : Prop where
  keyv : s.keyv = t.keyv
  nr : s.nr = t.nr
  rk : s.rk = t.rk
  ivmask : s.ivmask = t.ivmask
  chain : chain mode s.cv = chain mode t.cv

theorem SameCipher.refl (mode : Mode) (s : State) : SameCipher mode s s := ⟨rfl, rfl, rfl, rfl, rfl⟩

theorem SameCipher.symm {mode : Mode} {s t : State} (h : SameCipher mode s t) : SameCipher mode t s :=
  ⟨h.keyv.symm, h.nr.symm, h.rk.symm, h.ivmask.symm, h.chain.symm⟩

theorem SameCipher.trans {mode : Mode} {s t u : State} (h : SameCipher mode s t) (h' : SameCipher mode t u) :
    SameCipher mode s u :=
  ⟨h.keyv.trans h'.keyv, h.nr.trans h'.nr, h.rk.trans h'.rk, h.ivmask.trans h'.ivmask, h.chain.trans h'.chain⟩

theorem SameCipher.ready {mode : Mode} {s t : State} (h : SameCipher mode s t) (hs : CipherReady mode s) :
    CipherReady mode t :=
  ⟨h.keyv.symm.trans hs.keyv, fun hm => h.ivmask.symm.trans (hs.ivmask hm)⟩

/-- States with the same schedule and IVMASK are the same to a cipher once the same block is in CV. -/
theorem SameCipher.putCv {mode : Mode} {s t : State} (h : SameCipher mode s t) (v : Block) :
    SameCipher mode (s.putCv v) (t.putCv v) :=
  ⟨h.keyv, h.nr, h.rk, h.ivmask, rfl⟩

theorem CipherReady.putCv {mode : Mode} {s : State} (h : CipherReady mode s) (v : Block) :
    CipherReady mode (s.putCv v) :=
  ⟨h.keyv, h.ivmask⟩

/-- The state with the chaining value that the ciphertext blocks leave, the last of them (rules R242, R245). -/
def afterBlocks (s : State) (cs : List Block) : State := s.putCv (cs.getLastD s.cv)

theorem afterBlocks_cons (s : State) (c : Block) (cs : List Block) :
    afterBlocks s (c :: cs) = afterBlocks (s.putCv c) cs := by
  rw [afterBlocks, List.getLastD_cons]
  rfl

theorem SameCipher.after {mode : Mode} {s t : State} (h : SameCipher mode s t) (cs : List Block) :
    SameCipher mode (afterBlocks s cs) (afterBlocks t cs) := by
  cases cs with
  | nil => exact h
  | cons c cs =>
    rw [afterBlocks_cons, afterBlocks_cons, afterBlocks, afterBlocks]
    exact h.putCv _

/-- The plaintext block of a ciphertext block, with the chaining value of the state (rule R235). -/
def plainBlock (mode : Mode) (s : State) (c : Block) : Block := chain mode s.cv (invCipher c s.rk s.nr.toNat)

theorem SameCipher.plainBlock_eq {mode : Mode} {s t : State} (h : SameCipher mode s t) (c : Block) :
    plainBlock mode s c = plainBlock mode t c := by
  rw [plainBlock, plainBlock, h.chain, h.rk, h.nr]

/-- A successful ENC or DEC of one block, where the ciphertext block is `c`: its writes, and the chaining value it
leaves. -/
theorem succeed_cipher_same (mode : Mode) (out c d : Block) (n : Nat) (s : State) :
    ∃ t, succeed (putChain mode c (({ s with din := d }.putDout out).putOutlen n)) = .next t ∧ t.err = 0#3 ∧
      t.dout = out ∧ t.outlen = BitVec.ofNat 5 n ∧ SameCipher mode (s.putCv c) t := by
  refine ⟨_, succeed_cipher_eq .., rfl, rfl, rfl, rfl, rfl, rfl, rfl, ?_⟩
  cases mode <;> rfl

section
variable {mode : Mode} {s : State} (hs : CipherReady mode s)
include hs

/-- ENC of a block gives a ciphertext block whose plaintext block is what was enciphered, and chains on it. -/
theorem exec_enc_plainBlock {final : Bool} {dlen : Nat} (hlen : encLenOk final dlen = true) (p : Block) :
    ∃ t c, exec (.enc mode final dlen) { s with din := p } = .next t ∧ t.err = 0#3 ∧ t.dout = c ∧
      plainBlock mode s c = encInput final dlen p ∧ SameCipher mode (s.putCv c) t := by
  obtain ⟨c, hc⟩ : ∃ c, cipher (chain mode s.cv (encInput final dlen p)) s.rk s.nr.toNat = c := ⟨_, rfl⟩
  have henc := exec_enc_of_legal (s := { s with din := p }) hs.keyv hlen hs.ivmask hc
  obtain ⟨t, ht, herr, hdout, -, hsame⟩ := succeed_cipher_same mode c c p 16 s
  refine ⟨t, c, henc.trans ht, herr, hdout, ?_, hsame⟩
  rw [plainBlock, ← hc, invCipher_cipher, chain_chain]

/-- DEC of a block gives its plaintext block and chains on the ciphertext block. -/
theorem exec_dec_plainBlock {final : Bool} {c : Block} (hpad : final = true → unpadOk (plainBlock mode s c) = true) :
    ∃ t, exec (.dec mode final 16) { s with din := c } = .next t ∧ t.err = 0#3 ∧ t.dout = plainBlock mode s c ∧
      t.outlen = BitVec.ofNat 5 (decOutlen final (plainBlock mode s c)) ∧ SameCipher mode (s.putCv c) t := by
  have hdec := exec_dec_of_legal (s := { s with din := c }) hs.keyv hs.ivmask rfl hpad
  obtain ⟨t, ht, hrest⟩ :=
    succeed_cipher_same mode (plainBlock mode s c) c c (decOutlen final (plainBlock mode s c)) s
  exact ⟨t, hdec.trans ht, hrest⟩

end

/-! ### A stream of blocks -/

/-- The plaintext blocks of ciphertext blocks: each takes the ciphertext block before it as its chaining value, the
first the state's CV (rule R235). -/
def plainBlocks (mode : Mode) (s : State) (cs : List Block) : List Block :=
  List.zipWith (fun v c => plainBlock mode (s.putCv v) c) (s.cv :: cs) cs

@[simp] theorem plainBlocks_nil (mode : Mode) (s : State) : plainBlocks mode s [] = [] := rfl

theorem plainBlocks_cons (mode : Mode) (s : State) (c : Block) (cs : List Block) :
    plainBlocks mode s (c :: cs) = plainBlock mode s c :: plainBlocks mode (s.putCv c) cs := rfl

@[simp] theorem length_plainBlocks (mode : Mode) (s : State) (cs : List Block) :
    (plainBlocks mode s cs).length = cs.length := by
  simp [plainBlocks]

theorem SameCipher.plainBlocks_eq {mode : Mode} {s t : State} (h : SameCipher mode s t) (cs : List Block) :
    plainBlocks mode s cs = plainBlocks mode t cs := by
  induction cs generalizing s t with
  | nil => rw [plainBlocks_nil, plainBlocks_nil]
  | cons c cs ih => rw [plainBlocks_cons, plainBlocks_cons, h.plainBlock_eq, ih (h.putCv c)]

theorem runStream_cons {i : Instr} {s t : State} {b : Block} (h : exec i { s with din := b } = .next t)
    (herr : t.err = 0#3) (bs : List Block) :
    runStream i s (b :: bs) = (runStream i t bs).map fun r => (r.1, t.dout :: r.2) := by
  simp only [runStream, h, herr, if_true]

/-- Encrypting blocks gives ciphertext blocks whose plaintext blocks they are. -/
theorem runStream_enc {mode : Mode} {s : State} (hs : CipherReady mode s) (ps : List Block) :
    ∃ t cs, runStream (.enc mode false 16) s ps = some (t, cs) ∧ plainBlocks mode s cs = ps ∧
      SameCipher mode (afterBlocks s cs) t := by
  induction ps generalizing s with
  | nil => exact ⟨s, [], rfl, rfl, .refl mode s⟩
  | cons p ps ih =>
    obtain ⟨t, c, ht, herr, rfl, hplain, hsame⟩ := exec_enc_plainBlock hs (rfl : encLenOk false 16 = true) p
    obtain ⟨u, cs, hu, hplains, hafter⟩ := ih (hsame.ready (hs.putCv _))
    refine ⟨u, t.dout :: cs, ?run, ?plain, ?after⟩
    case run => rw [runStream_cons ht herr, hu]; rfl
    case plain => rw [plainBlocks_cons, hplain, hsame.plainBlocks_eq, hplains]; rfl
    case after => rw [afterBlocks_cons]; exact (hsame.after cs).trans hafter

/-- Decrypting blocks gives their plaintext blocks. -/
theorem runStream_dec {mode : Mode} {s : State} (hs : CipherReady mode s) (cs : List Block) :
    ∃ t, runStream (.dec mode false 16) s cs = some (t, plainBlocks mode s cs) ∧
      SameCipher mode (afterBlocks s cs) t := by
  induction cs generalizing s with
  | nil => exact ⟨s, rfl, .refl mode s⟩
  | cons c cs ih =>
    obtain ⟨t, ht, herr, hdout, -, hsame⟩ := exec_dec_plainBlock (final := false) (c := c) hs nofun
    obtain ⟨u, hu, hafter⟩ := ih (hsame.ready (hs.putCv c))
    refine ⟨u, ?run, ?after⟩
    case run => rw [runStream_cons ht herr, hu, hdout, plainBlocks_cons, hsame.plainBlocks_eq]; rfl
    case after => rw [afterBlocks_cons]; exact (hsame.after cs).trans hafter

/-! ### The dependence of CBC's blocks -/

theorem xorBlock_comm (a b : Block) : xorBlock a b = xorBlock b a :=
  block_ext_cell fun r c => by rw [cell_xorBlock, cell_xorBlock, BitVec.xor_comm]

theorem xorBlock_assoc (a b c : Block) : xorBlock (xorBlock a b) c = xorBlock a (xorBlock b c) :=
  block_ext_cell fun r _ => by simp only [cell_xorBlock, BitVec.xor_assoc]

theorem xorBlock_left_inj {a b k : Block} : xorBlock a k = xorBlock b k ↔ a = b :=
  (Function.LeftInverse.injective (g := (xorBlock · k)) (xorBlock_xorBlock_cancel · k)).eq_iff

theorem xorBlock_right_inj {k a b : Block} : xorBlock k a = xorBlock k b ↔ a = b := by
  rw [xorBlock_comm k, xorBlock_comm k, xorBlock_left_inj]

theorem xorBlock_eq_xorBlock_difference (b k k' : Block) : xorBlock b k' = xorBlock (xorBlock b k) (xorBlock k k') := by
  rw [← xorBlock_assoc, xorBlock_xorBlock_cancel]

theorem invCipher_inj {a b : Block} {rk : Vector Block 15} {nr : Nat} :
    invCipher a rk nr = invCipher b rk nr ↔ a = b :=
  (Function.LeftInverse.injective (f := (invCipher · rk nr)) (g := (cipher · rk nr)) (cipher_invCipher · rk nr)).eq_iff

/-- Plaintext block i in CBC: the ciphertext block before it is entry i of the IV and the blocks (rule R235). -/
theorem getElem?_plainBlocks_cbc (s : State) {cs : List Block} {i : Nat} (h : i < cs.length) :
    (plainBlocks .cbc s cs)[i]? =
      some (xorBlock (invCipher cs[i] s.rk s.nr.toNat) ((s.cv :: cs)[i]'(Nat.lt_succ_of_lt h))) := by
  rw [List.getElem?_eq_getElem (by simpa using h)]
  simp only [plainBlocks, List.getElem_zipWith]
  rfl

section
variable (s : State) (v : Block) {cs cs' : List Block} {i : Nat} (h : i < cs.length) (h' : i < cs'.length)
include h h'

/-- With equal chaining values, plaintext blocks are equal exactly when their ciphertext blocks are. -/
theorem plainBlocks_cbc_eq_iff_block (hprev : (s.cv :: cs)[i]? = (v :: cs')[i]?) :
    (plainBlocks .cbc s cs)[i]? = (plainBlocks .cbc (s.putCv v) cs')[i]? ↔ cs[i]? = cs'[i]? := by
  rw [List.getElem?_eq_getElem (Nat.lt_succ_of_lt h), List.getElem?_eq_getElem (Nat.lt_succ_of_lt h'),
    Option.some_inj] at hprev
  rw [getElem?_plainBlocks_cbc s h, getElem?_plainBlocks_cbc _ h', State.putCv_cv, hprev, Option.some_inj,
    xorBlock_left_inj, List.getElem?_eq_getElem h, List.getElem?_eq_getElem h', Option.some_inj]
  exact invCipher_inj

/-- With equal ciphertext blocks, plaintext blocks are equal exactly when their chaining values are. -/
theorem plainBlocks_cbc_eq_iff_previous (hblock : cs[i]? = cs'[i]?) :
    (plainBlocks .cbc s cs)[i]? = (plainBlocks .cbc (s.putCv v) cs')[i]? ↔ (s.cv :: cs)[i]? = (v :: cs')[i]? := by
  rw [List.getElem?_eq_getElem h, List.getElem?_eq_getElem h', Option.some_inj] at hblock
  rw [getElem?_plainBlocks_cbc s h, getElem?_plainBlocks_cbc _ h', State.putCv_cv, State.putCv_rk, State.putCv_nr,
    hblock, Option.some_inj, xorBlock_right_inj, List.getElem?_eq_getElem (Nat.lt_succ_of_lt h),
    List.getElem?_eq_getElem (Nat.lt_succ_of_lt h'), Option.some_inj]

/-- With equal plaintext blocks, ciphertext blocks are equal exactly when their chaining values are. -/
theorem cbc_block_eq_iff_previous
    (hplain : (plainBlocks .cbc s cs)[i]? = (plainBlocks .cbc (s.putCv v) cs')[i]?) :
    cs[i]? = cs'[i]? ↔ (s.cv :: cs)[i]? = (v :: cs')[i]? :=
  ⟨fun hblock => (plainBlocks_cbc_eq_iff_previous s v h h' hblock).mp hplain,
    fun hprev => (plainBlocks_cbc_eq_iff_block s v h h' hprev).mp hplain⟩

end

/-- A list with one entry replaced by another value differs from the list there and nowhere else. -/
theorem getElem?_eq_set_iff {α : Type} {l : List α} {j : Nat} (hj : j < l.length) {a : α} (ha : a ≠ l[j]) (k : Nat) :
    l[k]? = (l.set j a)[k]? ↔ k ≠ j := by
  by_cases hkj : k = j
  · subst hkj
    simpa [hj] using ha.symm
  · simp [hkj, List.getElem?_set_ne (Ne.symm hkj)]

/-- Settles O29: block i's plaintext depends on ciphertext blocks i and i - 1 alone, and on each by a bijection. -/
theorem cbcDecryptionIsLocal : Obligations.CbcDecryptionIsLocal := by
  intro s cs iv c j hj hkeyv hivmask hc
  have hs : CipherReady .cbc s := ⟨hkeyv, fun _ => hivmask⟩
  obtain ⟨t, ht, -⟩ := runStream_dec hs cs
  obtain ⟨t', ht', -⟩ := runStream_dec hs (cs.set j c)
  obtain ⟨t'', ht'', -⟩ := runStream_dec (hs.putCv iv) cs
  refine ⟨t, t', t'', _, _, _, ht, ht', ht'', ?blocks, ?ivFirst, ?ivLater⟩
  case blocks =>
    intro i hi
    have hi' : i < (cs.set j c).length := by rwa [List.length_set]
    have hblock := getElem?_eq_set_iff hj hc
    by_cases hij : i = j
    · have hprev : (s.cv :: cs)[i]? = (s.cv :: cs.set j c)[i]? := by
        rw [← List.set_cons_succ, List.getElem?_set_ne (by omega)]
      exact (plainBlocks_cbc_eq_iff_block s s.cv hi hi' hprev).trans ((hblock i).trans (by omega))
    · refine (plainBlocks_cbc_eq_iff_previous s s.cv hi hi' ((hblock i).mpr hij)).trans ?_
      cases i with
      | zero => simpa using hij
      | succ i => exact (hblock i).trans (by omega)
  case ivFirst =>
    cases cs with
    | nil => rfl
    | cons c₀ cs =>
      exact congrArg some (xorBlock_eq_xorBlock_difference (invCipher c₀ s.rk s.nr.toNat) s.cv iv)
  case ivLater =>
    intro i hi
    obtain ⟨i, rfl⟩ := Nat.exists_eq_add_of_le' hi
    cases cs <;> rfl

/-- Settles O30: the first difference reaches ciphertext block j, and equal plaintext blocks pass a difference of the
chaining values on. -/
theorem cbcEncryptionPropagates : Obligations.CbcEncryptionPropagates := by
  intro s ps iv p j hj hkeyv hivmask hp hiv
  have hs : CipherReady .cbc s := ⟨hkeyv, fun _ => hivmask⟩
  obtain ⟨t, cs, ht, rfl, -⟩ := runStream_enc hs ps
  obtain ⟨t', cs', ht', hcs', -⟩ := runStream_enc hs ((plainBlocks .cbc s cs).set j p)
  obtain ⟨t'', cs'', ht'', hcs'', -⟩ := runStream_enc (hs.putCv iv) (plainBlocks .cbc s cs)
  have hlen' : cs'.length = cs.length := by simpa using congrArg List.length hcs'
  have hlen'' : cs''.length = cs.length := by simpa using congrArg List.length hcs''
  refine ⟨t, t', t'', cs, cs', cs'', ht, ht', ht'', ?block, ?iv⟩
  case block =>
    have hplain (k : Nat) : (plainBlocks .cbc s cs)[k]? = (plainBlocks .cbc (s.putCv s.cv) cs')[k]? ↔ k ≠ j :=
      hcs' ▸ getElem?_eq_set_iff hj hp k
    have hprev (i : Nat) (hi : i ≤ cs.length) : (s.cv :: cs)[i]? = (s.cv :: cs')[i]? ↔ i ≤ j := by
      induction i with
      | zero => simp
      | succ i ih =>
        have ih := ih (Nat.le_of_succ_le hi)
        have hi' : i < cs'.length := by omega
        by_cases hij : i = j
        · have hblock := plainBlocks_cbc_eq_iff_block s s.cv hi hi' (ih.mpr hij.le)
          exact hblock.symm.trans ((hplain i).trans (by omega))
        · have hblock := cbc_block_eq_iff_previous s s.cv hi hi' ((hplain i).mpr hij)
          exact hblock.trans (ih.trans (by omega))
    intro i hi
    exact hprev (i + 1) (by simpa using hi)
  case iv =>
    have hprev (i : Nat) (hi : i ≤ cs.length) : (s.cv :: cs)[i]? ≠ (iv :: cs'')[i]? := by
      induction i with
      | zero => simpa using hiv.symm
      | succ i ih =>
        have hi'' : i < cs''.length := by omega
        have hblock := cbc_block_eq_iff_previous s iv hi hi'' (by rw [hcs''])
        exact fun heq => ih (Nat.le_of_succ_le hi) (hblock.mp heq)
    intro i hi
    exact hprev (i + 1) (by simpa using hi)

/-! ### A message -/

theorem toList_take_messageBlock (m : List Byte) {j k : Nat} (hk : k ≤ 16) (hm : 16 * j + k ≤ m.length) :
    (messageBlock m j).toList.take k = (m.drop (16 * j)).take k := by
  apply List.ext_getElem
  · simp only [List.length_take, Vector.length_toList, List.length_drop]
    omega
  · intro i hi _
    have hik : 16 * j + i < m.length := by simp at hi; omega
    simp [messageBlock, hik]

theorem toList_take_pad (b : Block) (l : Nat) : (pad b l).toList.take l = b.toList.take l := by
  apply List.ext_getElem
  · simp
  · intro i hi _
    have hil : i < l := by simp at hi; omega
    simp [getElem_pad, hil]

/-- The bytes of the first n blocks of a message that is at least that long. -/
theorem flatMap_toList_messageBlock (m : List Byte) {n : Nat} (h : 16 * n ≤ m.length) :
    ((List.range n).map (messageBlock m)).flatMap (fun b => b.toList) = m.take (16 * n) := by
  induction n with
  | zero => rfl
  | succ n ih =>
    have hlast := toList_take_messageBlock m (j := n) (k := 16) le_rfl (by omega)
    rw [List.take_of_length_le (by simp)] at hlast
    simp [List.range_succ, ih (by omega), hlast, Nat.mul_succ, List.take_add]

/-- A message is its full blocks and the data bytes of its last block (rules R246, R247). -/
theorem message_eq_blocks (m : List Byte) :
    (fullBlocks m).flatMap (fun b => b.toList) ++
      (pad (messageBlock m (m.length / 16)) (m.length % 16)).toList.take (m.length % 16) = m := by
  have hlen := Nat.div_add_mod m.length 16
  rw [fullBlocks, flatMap_toList_messageBlock m (by omega), toList_take_pad,
    toList_take_messageBlock m (by omega) hlen.le, ← List.take_add, hlen, List.take_length]

theorem encryptMessage_eq {mode : Mode} {s t u : State} {m : List Byte} {cs : List Block}
    (hfull : runStream (.enc mode false 16) s (fullBlocks m) = some (t, cs))
    (hlast : exec (.enc mode true (m.length % 16)) { t with din := messageBlock m (m.length / 16) } = .next u)
    (herr : u.err = 0#3) : encryptMessage mode s m = some (u, cs ++ [u.dout]) := by
  rw [encryptMessage, hfull]
  simp only [runStream_cons hlast herr]
  rfl

theorem decryptMessage_concat {mode : Mode} {s t u : State} {cs ps : List Block} {c : Block}
    (hfull : runStream (.dec mode false 16) s cs = some (t, ps))
    (hlast : exec (.dec mode true 16) { t with din := c } = .next u) (herr : u.err = 0#3) :
    decryptMessage mode s (cs ++ [c]) =
      some (ps.flatMap (fun p => p.toList) ++ u.dout.toList.take u.outlen.toNat) := by
  simp only [decryptMessage, List.getLast?_concat, List.dropLast_concat, hfull, runStream_cons hlast herr]
  rfl

/-- Settles O28: decryption sees the chaining values that encryption had, so it gives the plaintext blocks back, and
OUTLEN cuts the pad off. -/
theorem messageRoundTrip : Obligations.MessageRoundTrip := by
  intro s mode m hkeyv hiv
  have hs : CipherReady mode s := ⟨hkeyv, hiv⟩
  have hr : m.length % 16 ≤ 15 := by omega
  -- ENC leads from s over the full blocks to t and over the last block to u.
  obtain ⟨t, cs, ht, hplains, hst⟩ := runStream_enc hs (fullBlocks m)
  have hlegal : encLenOk true (m.length % 16) = true := encLenOk_of_legal nofun fun _ => hr
  have htready : CipherReady mode t := hst.ready (hs.putCv _)
  obtain ⟨u, c, hu, huerr, rfl, hplain, htu⟩ :=
    exec_enc_plainBlock htready hlegal (messageBlock m (m.length / 16))
  -- DEC leads from u, with the first chaining value, over the earlier blocks to v and over the last block to w.
  have hsame : SameCipher mode s (u.putCv s.cv) := (hst.putCv s.cv).trans (htu.putCv s.cv)
  obtain ⟨v, hv, huv⟩ := runStream_dec (hsame.ready hs) cs
  have htv : SameCipher mode t v := hst.symm.trans ((hsame.after cs).trans huv)
  rw [htv.plainBlock_eq] at hplain
  have hpad : unpadOk (plainBlock mode v u.dout) = true := hplain ▸ unpadOk_pad _ hr
  obtain ⟨w, hw, hwerr, hwdout, hwoutlen, -⟩ :=
    exec_dec_plainBlock (final := true) (htv.ready htready) fun _ => hpad
  rw [hplain, decOutlen_encInput (final := true) nofun fun _ => hr] at hwoutlen
  rw [hplain] at hwdout
  refine ⟨u, cs ++ [u.dout], encryptMessage_eq ht hu huerr, ?length, ?message⟩
  case length => simpa [fullBlocks] using congrArg List.length hplains
  case message =>
    have houtlen : w.outlen.toNat = m.length % 16 := by
      rw [hwoutlen, BitVec.toNat_ofNat]
      omega
    refine (decryptMessage_concat hv hw hwerr).trans (congrArg some ?_)
    rw [← hsame.plainBlocks_eq, hplains, hwdout, houtlen]
    exact message_eq_blocks m

end Sys2Proof.Machine
end

section
/-! PROOFS. The statements about control (44_control.md). `CommandWrote` refines `Wrote` by the command: it says which
elements each command may write, and each clause of the frame of rule R274 is read off it. -/

namespace Sys2Proof.Machine

/-- What a command may write before the completion's own writes; the values are left open. -/
inductive CommandWrote (s : State) : Instr → State → Prop
  /-- NOP, and every command that takes its exception (60_exceptions.md rule R303). -/
  | nothing (i : Instr) : CommandWrote s i s
  | clear : CommandWrote s .clear s.wipe
  | expand (klen : KeyLen) (rk : Vector Block 15) (n : Nat) : CommandWrote s (.expand klen) (s.putSchedule rk n)
  | enc (mode : Mode) (final : Bool) (dlen : Nat) (out cv : Block) (n : BitVec 5) (hcv : mode ≠ .cbc → cv = s.cv) :
      CommandWrote s (.enc mode final dlen) { s with dout := out, cv := cv, outlen := n }
  | dec (mode : Mode) (final : Bool) (dlen : Nat) (out cv : Block) (n : BitVec 5) (hcv : mode ≠ .cbc → cv = s.cv) :
      CommandWrote s (.dec mode final dlen) { s with dout := out, cv := cv, outlen := n }
  | gfmul (a b r : Byte) : CommandWrote s (.gfmul a b) (s.putResult r)
  | gfinv (a r : Byte) : CommandWrote s (.gfinv a) (s.putResult r)
  | sbox (a r : Byte) : CommandWrote s (.sbox a) (s.putResult r)
  | isbox (a r : Byte) : CommandWrote s (.isbox a) (s.putResult r)
  | rkrd (k : Nat) (b : Block) : CommandWrote s (.rkrd k) (s.putDout b)
  | ark (k : Nat) (b : Block) : CommandWrote s (.ark k) (s.putDout b)
  | subb (b : Block) : CommandWrote s .subb (s.putDout b)
  | isubb (b : Block) : CommandWrote s .isubb (s.putDout b)
  | shr (b : Block) : CommandWrote s .shr (s.putDout b)
  | ishr (b : Block) : CommandWrote s .ishr (s.putDout b)
  | mixc (b : Block) : CommandWrote s .mixc (s.putDout b)
  | imixc (b : Block) : CommandWrote s .imixc (s.putDout b)

/-- Every command answers a next state: what it may write, and then the completion's own writes. -/
theorem exec_commandWrote (i : Instr) (s : State) :
    ∃ u e, CommandWrote s i u ∧ exec i s = .next (u.finish e) := by
  cases i with
  | nop => exact ⟨s, .none, .nothing _, rfl⟩
  | clear => exact ⟨_, .none, .clear, rfl⟩
  | expand klen =>
    cases klen with
    | kbad => exact ⟨s, .invalidKeyLength, .nothing _, rfl⟩
    | k128 | k192 | k256 => exact ⟨_, .none, .expand _ _ _, rfl⟩
  | enc mode final dlen =>
    simp only [exec, execEnc]
    split
    · next e _ => exact ⟨s, e, .nothing _, rfl⟩
    · rw [succeed_cipher_eq]
      exact ⟨_, .none, .enc mode final dlen _ _ _ fun h => if_neg h, rfl⟩
  | dec mode final dlen =>
    simp only [exec, execDec]
    split
    · next e _ => exact ⟨s, e, .nothing _, rfl⟩
    · split
      · exact ⟨s, .invalidPadding, .nothing _, rfl⟩
      · rw [succeed_cipher_eq]
        exact ⟨_, .none, .dec mode final dlen _ _ _ fun h => if_neg h, rfl⟩
  | rkrd k =>
    simp only [exec, execRkrd]
    split
    · next e _ => exact ⟨s, e, .nothing _, rfl⟩
    · exact ⟨_, .none, .rkrd k _, rfl⟩
  | ark k =>
    simp only [exec, execArk]
    split
    · next e _ => exact ⟨s, e, .nothing _, rfl⟩
    · exact ⟨_, .none, .ark k _, rfl⟩
  | gfmul a b => exact ⟨_, .none, .gfmul a b _, rfl⟩
  | gfinv a => exact ⟨_, .none, .gfinv a _, rfl⟩
  | sbox a => exact ⟨_, .none, .sbox a _, rfl⟩
  | isbox a => exact ⟨_, .none, .isbox a _, rfl⟩
  | subb => exact ⟨_, .none, .subb _, rfl⟩
  | isubb => exact ⟨_, .none, .isubb _, rfl⟩
  | shr => exact ⟨_, .none, .shr _, rfl⟩
  | ishr => exact ⟨_, .none, .ishr _, rfl⟩
  | mixc => exact ⟨_, .none, .mixc _, rfl⟩
  | imixc => exact ⟨_, .none, .imixc _, rfl⟩

/-! ### The clauses of the frame -/

section
variable {i : Instr} {s u : State} (hw : CommandWrote s i u)
include hw

theorem CommandWrote.outside_eq : u.ie = s.ie ∧ u.pend = s.pend ∧ u.rst = s.rst ∧ u.program = s.program ∧
    u.reads = s.reads ∧ u.turns = s.turns := by
  cases hw <;> exact ⟨rfl, rfl, rfl, rfl, rfl, rfl⟩

theorem CommandWrote.operands_eq (hclear : i ≠ .clear) :
    u.key = s.key ∧ u.din = s.din ∧ u.ivmask = s.ivmask ∧ u.ovr = s.ovr := by
  cases hw with
  | clear => exact absurd rfl hclear
  | _ => exact ⟨rfl, rfl, rfl, rfl⟩

theorem CommandWrote.schedule_eq (hclear : i ≠ .clear) (hexpand : ∀ k, i ≠ .expand k) :
    u.rk = s.rk ∧ u.keyv = s.keyv ∧ u.nr = s.nr := by
  cases hw with
  | clear => exact absurd rfl hclear
  | expand klen => exact absurd rfl (hexpand klen)
  | _ => exact ⟨rfl, rfl, rfl⟩

theorem CommandWrote.cv_eq (hclear : i ≠ .clear) (henc : ∀ f d, i ≠ .enc .cbc f d) (hdec : ∀ f d, i ≠ .dec .cbc f d) :
    u.cv = s.cv := by
  cases hw with
  | clear => exact absurd rfl hclear
  | enc mode final dlen out cv n hcv => exact hcv fun hm => henc final dlen (hm ▸ rfl)
  | dec mode final dlen out cv n hcv => exact hcv fun hm => hdec final dlen (hm ▸ rfl)
  | _ => rfl

theorem CommandWrote.outlen_eq (hclear : i ≠ .clear) (henc : ∀ m f d, i ≠ .enc m f d)
    (hdec : ∀ m f d, i ≠ .dec m f d) : u.outlen = s.outlen := by
  cases hw with
  | clear => exact absurd rfl hclear
  | enc mode final dlen => exact absurd rfl (henc mode final dlen)
  | dec mode final dlen => exact absurd rfl (hdec mode final dlen)
  | _ => rfl

theorem CommandWrote.result_eq (hclear : i ≠ .clear) (hgfmul : ∀ a b, i ≠ .gfmul a b) (hgfinv : ∀ a, i ≠ .gfinv a)
    (hsbox : ∀ a, i ≠ .sbox a) (hisbox : ∀ a, i ≠ .isbox a) : u.result = s.result := by
  cases hw with
  | clear => exact absurd rfl hclear
  | gfmul a b => exact absurd rfl (hgfmul a b)
  | gfinv a => exact absurd rfl (hgfinv a)
  | sbox a => exact absurd rfl (hsbox a)
  | isbox a => exact absurd rfl (hisbox a)
  | _ => rfl

theorem CommandWrote.dout_eq (hi : i = .nop ∨ (∃ k, i = .expand k) ∨ (∃ a b, i = .gfmul a b) ∨ (∃ a, i = .gfinv a) ∨
    (∃ a, i = .sbox a) ∨ (∃ a, i = .isbox a)) : u.dout = s.dout := by
  cases hw with
  | nothing | expand | gfmul | gfinv | sbox | isbox => rfl
  | clear | enc | dec | rkrd | ark | subb | isubb | shr | ishr | mixc | imixc => simp at hi

end

/-! ### The statements -/

/-- Settles O35: the completion writes BUSY, DONE and ERR alone, so each clause is one about the command's writes. -/
theorem commandEffects : Obligations.CommandEffects := by
  intro i s
  obtain ⟨u, e, hw, hexec⟩ := exec_commandWrote i s
  obtain ⟨hie, hpend, hrst, hprogram, hreads, hturns⟩ := hw.outside_eq
  exact ⟨u.finish e, hexec, hie, hpend, hrst, hprogram, hreads, hturns, hw.operands_eq, hw.schedule_eq, hw.cv_eq,
    hw.outlen_eq, hw.result_eq, hw.dout_eq⟩

/-- Settles O32: NOP is the completion alone, and CLEAR's writes are the reset values of all it does not keep. -/
theorem nopAndClearComplete : Obligations.NopAndClearComplete := fun _ => ⟨rfl, rfl⟩

end Sys2Proof.Machine
end

section
/-! PROOFS. The statements about errors and about the idle engine (60_exceptions.md): which words are illegal, which
condition each command's completion records, and what an error completion and an idle step leave as it was. -/

namespace Sys2Proof

/-! ### Illegal words -/

/-- The opcodes without a command are those above the map (30_encoding.md rules R98, R99). -/
theorem decodeOp_eq_none_iff (p : Word) : decodeOp p = none ↔ Config.lastOpcode < opField p := by
  constructor
  · intro hnone
    by_contra hle
    obtain ⟨i, hi⟩ := exists_decodeOp (not_lt.mp hle)
    simp [hnone] at hi
  · intro hlt
    cases hi : decodeOp p with
    | none => rfl
    | some i =>
      obtain ⟨hop, -⟩ := (decodeOp_eq_some_iff p i).mp hi
      exact absurd (hop ▸ hlt) (Laws.Opcode.opcode_le i).not_gt

/-- A word is illegal when a reserved bit is set or its opcode is not in the map (60_exceptions.md rule R305). -/
theorem exists_decode_eq_illegal_iff (p : Word) :
    (∃ why, decode p = .illegal why) ↔
      p.getLsbD 7 = true ∨ p.getLsbD 15 = true ∨ Config.lastOpcode < opField p := by
  rw [← decodeOp_eq_none_iff, decode]
  cases p.getLsbD 7 <;> cases p.getLsbD 15 <;> cases decodeOp p <;> simp

end Sys2Proof

namespace Sys2Proof.Machine

theorem complete_of_illegal {s : State} {why : IllegalWord} (h : decode s.pend = .illegal why) :
    complete s = raise .illegalCommand s := by
  simp only [complete, h]

/-! ### The code a command records -/

/-- The result is a next state with this code in ERR. -/
def Records (r : Result) (code : BitVec 3) : Prop := ∃ t, r = .next t ∧ t.err = code

theorem records_raise (e : ErrCode) (s : State) : Records (raise e s) e.code := ⟨_, rfl, rfl⟩

theorem records_succeed (s : State) : Records (succeed s) 0#3 := ⟨_, rfl, rfl⟩

/-- The conditions ENC and DEC check before they compute, in the order of rule R302; `badLen` says that DLEN is not
legal. -/
theorem records_cipherError {mode : Mode} {lenOk : Bool} {badLen : Prop} [Decidable badLen] {s : State} {r : Result}
    {code : BitVec 3} (hlen : lenOk = false ↔ badLen) (herr : ∀ e, cipherError mode lenOk s = some e → r = raise e s)
    (hok : cipherError mode lenOk s = none → Records r code) :
    Records r (if s.keyv = false then 1#3 else if badLen then 2#3
      else if mode = .cbc ∧ s.ivmask ≠ 0b1111#4 then 4#3 else code) := by
  simp only [cipherError, hlen] at herr hok
  split_ifs at herr hok ⊢
  · exact herr _ rfl ▸ records_raise _ s
  · exact herr _ rfl ▸ records_raise _ s
  · exact herr _ rfl ▸ records_raise _ s
  · exact hok rfl

theorem encLenOk_eq_false_iff (final : Bool) (dlen : Nat) :
    encLenOk final dlen = false ↔ (final = false ∧ dlen ≠ 16) ∨ (final = true ∧ 15 < dlen) := by
  cases final <;> simp [encLenOk]

theorem decLenOk_eq_false_iff (dlen : Nat) : decLenOk dlen = false ↔ dlen ≠ 16 := by simp [decLenOk]

/-- RKRD and ARK record a missing schedule and nothing else (rule R301). -/
theorem records_rkrd_ark {i : Instr} (k : Nat) (hi : i = .rkrd k ∨ i = .ark k) (s : State) :
    Records (exec i s) (if s.keyv = false then 1#3 else 0#3) := by
  split
  · next hkeyv => exact exec_of_no_schedule hkeyv (.inr ⟨k, hi⟩) ▸ records_raise _ s
  · next hkeyv =>
    obtain ⟨hrkrd, hark⟩ := exec_rkrd_ark (eq_true_of_ne_false hkeyv) k
    obtain rfl | rfl := hi
    · exact ⟨_, hrkrd, rfl⟩
    · exact ⟨_, hark, rfl⟩

theorem records_enc (mode : Mode) (final : Bool) (dlen : Nat) (s : State) :
    Records (exec (.enc mode final dlen) s)
      (if s.keyv = false then 1#3
        else if (final = false ∧ dlen ≠ 16) ∨ (final = true ∧ 15 < dlen) then 2#3
        else if mode = .cbc ∧ s.ivmask ≠ 0b1111#4 then 4#3
        else 0#3) :=
  records_cipherError (encLenOk_eq_false_iff final dlen) (fun e he => by simp only [exec, execEnc, he])
    (fun hnone => by simp only [exec, execEnc, hnone]; exact records_succeed _)

/-- DEC checks the padding last, when it has computed the block (43_cipher_modes.md rule R243). -/
theorem records_dec (mode : Mode) (final : Bool) (dlen : Nat) (s : State) :
    Records (exec (.dec mode final dlen) s)
      (if s.keyv = false then 1#3
        else if dlen ≠ 16 then 2#3
        else if mode = .cbc ∧ s.ivmask ≠ 0b1111#4 then 4#3
        else if final = true ∧ unpadOk (chain mode s.cv (invCipher s.din s.rk s.nr.toNat)) = false then 3#3
        else 0#3) := by
  refine records_cipherError (decLenOk_eq_false_iff dlen) (fun e he => by simp only [exec, execDec, he]) ?_
  intro hnone
  simp only [exec, execDec, hnone, Bool.and_eq_true, Bool.not_eq_true']
  split
  · exact records_raise _ s
  · exact records_succeed _

/-! ### Idle -/

/-- Nobody moves when no command is pending, the host has nothing left and the schedule does not put the platform
first (rule R335). -/
theorem nextMove_idle {s : State} (hp : s.program = []) (hb : s.busy = false)
    (hturn : ∀ level, s.turns.head? ≠ some (.reset level)) : nextMove s = .idle := by
  have hc : completionEnabled s = false := by simp [completionEnabled, hb]
  match hts : s.turns with
  | .reset level :: ts => exact absurd (by simp [hts]) (hturn level)
  | [] | .host :: ts | .engine :: ts => simp [nextMove, hts, hc, hp]

/-! ### The statements -/

/-- Settles O6: the decoder rejects reserved bits and opcodes without a command, and the completion then takes the
exception. -/
theorem illegalWordsRaise : Obligations.IllegalWordsRaise := by
  intro s
  have hiff := exists_decode_eq_illegal_iff s.pend
  refine ⟨hiff, fun h => ?_⟩
  obtain ⟨why, hwhy⟩ := hiff.mpr h
  exact complete_of_illegal hwhy

/-- Settles O33: each command's checks come in the order of priority, and a command without a check succeeds. -/
theorem errorPriority : Obligations.ErrorPriority := by
  intro s
  obtain ⟨i, hd, hc⟩ | ⟨why, hd, hc⟩ := complete_cases s <;> rw [hc, hd]
  · cases i with
    | enc mode final dlen => exact records_enc mode final dlen s
    | dec mode final dlen =>
      have hdec := records_dec mode final dlen s
      rw [chain_eq_if] at hdec
      exact hdec
    | rkrd k => exact records_rkrd_ark k (.inl rfl) s
    | ark k => exact records_rkrd_ark k (.inr rfl) s
    | expand klen =>
      cases klen with
      | kbad => exact records_raise .invalidKeyLength s
      | k128 | k192 | k256 => exact records_succeed _
    | nop | clear | gfmul | gfinv | sbox | isbox | subb | isubb | shr | ishr | mixc | imixc => exact records_succeed _
  · exact records_raise .illegalCommand s

/-- Settles O34: a command ends with an error completion, which writes nothing else, or with code 0. -/
theorem errorsChangeNothingElse : Obligations.ErrorsChangeNothingElse := by
  intro i s
  obtain ⟨e, -, hexec⟩ | ⟨u, -, hexec⟩ := exec_cases i s
  · exact ⟨s.finish e, hexec, fun _ => rfl⟩
  · exact ⟨u.finish .none, hexec, fun herr => absurd rfl herr⟩

/-- Settles O51: it is nobody's move, so the step only uses up the schedule's entry. -/
theorem idleKeepsState : Obligations.IdleKeepsState := by
  intro s hp hb hturn
  rw [step, nextMove_idle hp hb hturn]
  rfl

end Sys2Proof.Machine
end

section
/-! PROOFS. The statements about reset and about the end of a run (70_reset_and_hazards.md): what the platform's move is
and what rst blocks, the run's end by induction along the run, the duties by host step, and then each statement. -/

namespace Sys2Proof.Machine

/-! ### Reset -/

/-- Asserting rst, or driving it while it is asserted, leaves the reset values: the platform's move goes before the
other agents' (rules R340 and R341). -/
theorem step_of_resetFirst {s : State} {level : Bool} {ts : List Turn} (h : s.turns = .reset level :: ts)
    (hrst : level = true ∨ s.rst = true) : step s = .next (State.resetEngine level { s with turns := ts }) := by
  have hdrive : step s = .next (driveReset level s.takeTurn) := by simp only [step, nextMove, h, moveOf]
  have hreset : (level || s.takeTurn.rst) = true := by simpa using hrst
  rw [hdrive, driveReset, if_pos hreset, State.takeTurn, h]
  rfl

theorem memRead_of_rst {s : State} (h : s.rst = true) (off : BitVec 8) (lanes : BitVec 4) :
    memRead off lanes s = 0#32 := by
  simp [memRead, h]

theorem memWrite_of_rst {s : State} (h : s.rst = true) (off : BitVec 8) (lanes : BitVec 4) (d : Word) :
    memWrite off lanes d s = s := by
  simp [memWrite, h]

/-- The engine moves only when a completion is enabled (10_state.md rule R43). -/
theorem completionEnabled_of_engine {s : State} (h : nextMove s = .engine) : completionEnabled s = true := by
  unfold nextMove at h
  split at h
  · cases h
  · split_ifs at h
    assumption
  · split_ifs at h
    assumption

theorem nextMove_ne_engine_of_rst {s : State} (h : s.rst = true) : nextMove s ≠ .engine := by
  intro hm
  simpa [completionEnabled, h] using completionEnabled_of_engine hm

/-! ### The steps that keep the duties, and OVR -/

theorem Wrote.ovr_of_ovr {s u : State} (hw : Wrote s u) (h : u.ovr = true) : s.ovr = true := by
  cases hw with
  | wiped => simp at h
  | cipher mode => cases mode <;> exact h
  | nothing | schedule | result | block => exact h

theorem driveReset_ovr_of_ovr {level : Bool} {s : State} (h : (driveReset level s).ovr = true) : s.ovr = true := by
  obtain hd | ⟨-, -, hd⟩ := driveReset_cases level s <;> rw [hd] at h
  · simp [State.reset] at h
  · exact h

/-- A step that breaks no duty does not set OVR: only a write that is dropped sets it (rule R351). -/
theorem step_ovr_of_duty {s t : State} (hd : stepKeepsDuties s = true) (hs : step s = .next t) (h : t.ovr = true) :
    s.ovr = true := by
  cases hm : nextMove s with
  | host =>
    rw [step_of_host hm] at hs
    cases hs
    have hduty : dutyKept s.takeTurn = true := (stepKeepsDuties_iff s).mp hd hm
    exact hostMove_ovr_of_duty (s := s.takeTurn) hduty h
  | engine =>
    obtain ⟨u, e, hw, hc⟩ := complete_eq_finish s.takeTurn
    rw [step_of_engine hm, hc] at hs
    cases hs
    exact hw.ovr_of_ovr h
  | platform level =>
    rw [step, hm] at hs
    cases hs
    exact driveReset_ovr_of_ovr (s := s.takeTurn) h
  | idle =>
    rw [step, hm] at hs
    cases hs
    exact h

/-! ### The end of a run -/

theorem runEnded_eq_false_iff (s : State) : runEnded s = false ↔ s.program ≠ [] ∨ s.busy = true := by
  simp [runEnded, or_iff_not_imp_left]

/-- What holds at the end of a run and is carried back over every step that breaks no duty holds where the run starts. -/
theorem endState_induction {e : State} {motive : Nat → State → Prop}
    (ended : ∀ n, runEnded e = true → motive n e)
    (next : ∀ n s t, runEnded s = false → stepKeepsDuties s = true → step s = .next t → motive n t → motive (n + 1) s)
    {n : Nat} {s : State} (h : endState n s = some e) : motive n s := by
  induction n generalizing s with
  | zero =>
    obtain ⟨hover, rfl⟩ : runEnded s = true ∧ s = e := by simpa [endState] using h
    exact ended 0 hover
  | succ n ih =>
    cases hover : runEnded s with
    | true =>
      obtain rfl : s = e := by simpa [endState_of_ended hover] using h
      exact ended _ hover
    | false =>
      cases hd : stepKeepsDuties s with
      | false => simp [endState_of_broken hover hd] at h
      | true =>
        obtain ⟨t, ht⟩ := everyStepAnswers s
        rw [endState_succ hover hd ht] at h
        exact next n s t hover hd ht (ih h)

theorem runEnded_of_endState {n : Nat} {s e : State} (h : endState n s = some e) : runEnded e = true :=
  endState_induction (motive := fun _ _ => runEnded e = true) (fun _ hover => hover) (fun _ _ _ _ _ _ ih => ih) h

theorem endState_ovr_of_ovr {n : Nat} {s e : State} (h : endState n s = some e) : e.ovr = true → s.ovr = true :=
  endState_induction (motive := fun _ s => e.ovr = true → s.ovr = true) (fun _ _ hovr => hovr)
    (fun _ _ _ _ hd ht ih hovr => step_ovr_of_duty hd ht (ih hovr)) h

/-- The end state is the same however much longer one looks for it. -/
theorem endState_of_le {n : Nat} {s e : State} (h : endState n s = some e) : ∀ m, n ≤ m → endState m s = some e := by
  refine endState_induction (motive := fun n s => ∀ m, n ≤ m → endState m s = some e)
    (fun _ hover m _ => endState_of_ended hover m) (fun n s t hover hd ht ih m hm => ?_) h
  obtain ⟨m, rfl⟩ := Nat.exists_eq_add_of_le' (Nat.le_of_add_left_le hm)
  exact (endState_succ hover hd ht m).trans (ih m (Nat.le_of_succ_le_succ hm))

/-! ### The duties, by host step -/

theorem dutyKept_read {s : State} {off : BitVec 8} {lanes : BitVec 4} {rest : List HostStep}
    (h : s.program = .read off lanes :: rest) : dutyKept s = true ↔ off.toNat % 4 = 0 ∧ lanes = 0b1111#4 := by
  simp only [dutyKept, h, accessOk_iff]

theorem dutyKept_write {s : State} {off : BitVec 8} {lanes : BitVec 4} {d : Word} {rest : List HostStep}
    (h : s.program = .write off lanes d :: rest) :
    dutyKept s = true ↔ off.toNat % 4 = 0 ∧ lanes = 0b1111#4 ∧
      ¬(s.busy = true ∧ (off.toNat = 0x08 ∨ (0x10 ≤ off.toNat ∧ off.toNat < 0x50))) := by
  simp only [dutyKept, h, Bool.and_eq_true, Bool.not_eq_true', ← Bool.not_eq_true, accessOk_iff, and_assoc]
  refine and_congr_right fun h4 => ?_
  rw [protectedReg_regOfWord h4]

theorem dutyKept_waits {s : State} {rest : List HostStep}
    (h : s.program = .wait :: rest ∨ s.program = .waitIrq :: rest) : dutyKept s = true := by
  obtain h | h := h <;> simp only [dutyKept, h]

/-! ### The statements -/

/-- Settles O52: a reset entry is the platform's move, and rst is looked at before every access and completion. -/
theorem resetAbandons : Obligations.ResetAbandons := by
  refine ⟨fun s ts h => ?assert, fun s off lanes d h => ?blocked, fun s ts hrst h => ?release⟩
  case assert => exact step_of_resetFirst h (.inl rfl)
  case blocked =>
    exact ⟨memRead_of_rst h off lanes, memWrite_of_rst h off lanes d, nextMove_ne_engine_of_rst h⟩
  case release => exact step_of_resetFirst h (.inr hrst)

/-- Settles O60: the end of a run by induction along it, its beginning by whether the next step breaks a duty. -/
theorem endOfRun : Obligations.EndOfRun := by
  refine ⟨fun s e n h => ?ends, fun s n hp hb => ?ended, fun s t n hgoes hs hd => ?goesOn,
    fun s n hgoes hm hd => ?broken, fun s t n hgoes hs hnone => ?noEnd,
    fun s off lanes d rest => ⟨dutyKept_read, dutyKept_write⟩, fun s rest => dutyKept_waits⟩
  case ends =>
    obtain ⟨hp, hb⟩ := (runEnded_iff e).mp (runEnded_of_endState h)
    exact ⟨hp, hb, fun hovr => Bool.eq_false_iff.mpr (mt (endState_ovr_of_ovr h) (by simp [hovr])), endState_of_le h⟩
  case ended => exact endState_of_ended ((runEnded_iff s).mpr ⟨hp, hb⟩) n
  case goesOn =>
    exact endState_succ ((runEnded_eq_false_iff s).mpr hgoes) ((stepKeepsDuties_iff s).mpr hd) hs n
  case broken =>
    have hbroken : stepKeepsDuties s = false := by simp only [stepKeepsDuties, hm, hd]
    exact endState_of_broken ((runEnded_eq_false_iff s).mpr hgoes) hbroken n
  case noEnd =>
    have hover := (runEnded_eq_false_iff s).mpr hgoes
    cases hd : stepKeepsDuties s with
    | false => exact endState_of_broken hover hd (n + 1)
    | true => exact (endState_succ hover hd hs n).trans hnone

end Sys2Proof.Machine
end
